-- ==== Sys2Proof/Word.lean ====
section
/-! DEFINITION. The word and byte types of the host port, and the fixed index types of the block
(spec 00_scope.md R6, R7, R8). -/

namespace Sys2Proof

/-- A command, operand or result word (R7 `WORD_W` = 32). -/
abbrev Word := BitVec 32

/-- One payload byte. -/
abbrev Byte := BitVec 8

/-- The payload bytes `data[0..7]` of a frame (R27, R32). -/
abbrev Payload := Vector Byte 8

/-- Transmit mailbox index (R6 `N_MB` = 3). -/
abbrev MbIdx := Fin 3

/-- Receive FIFO index (R6 `N_FIFO` = 2). -/
abbrev FifoIdx := Fin 2

/-- Filter bank index (R6 `N_BANK` = 14). -/
abbrev BankIdx := Fin 14

/-- Notification kind (R6 `N_KIND` = 19, numbering R96). -/
abbrev KindIdx := Fin 19

/-- Interrupt vector (R6 `N_VEC` = 3, numbering R96). -/
abbrev VecIdx := Fin 3

end Sys2Proof
end

