-- ==== Sys2Proof/Machine/Bits.lean ====
section
/-! DEFINITION. Bit fields of 32-bit words (spec 00_scope.md R8): bit 0 is the least significant bit. -/

namespace Sys2Proof.Machine

/-- The word whose bits from `lo` up hold the field `f`, all other bits 0. -/
def fieldAt {n : Nat} (lo : Nat) (f : BitVec n) : Word := f.setWidth 32 <<< lo

/-- The word whose bit `i` is `b`, all other bits 0. -/
def bitAt (i : Nat) (b : Bool) : Word := fieldAt i (BitVec.ofBool b)

/-- `w[lo+n-1 : lo]` (R8). -/
def fieldOf (w : Word) (lo n : Nat) : BitVec n := w.extractLsb' lo n

/-- `w[i]` (R8). -/
def bitOf (w : Word) (i : Nat) : Bool := w.getLsbD i

/-- R85, R101: an identifier operand has no bit set above its width (11 bits standard, 29 extended). -/
def idInRange (ide : Bool) (id : Word) : Bool :=
  if ide then fieldOf id 29 3 == 0 else fieldOf id 11 21 == 0

end Sys2Proof.Machine
end

