-- ==== Sys2Proof/Machine/Data.lean ====
section
/-! DEFINITION. The records the state is made of: mailboxes, frames, FIFO slots, latches, answers, and the
turns the environment draws (spec 10_state.md R22 to R39, 00_scope.md R11). -/

namespace Sys2Proof.Machine

/-- R22: the controller mode, read off the acknowledgment bits. -/
inductive Mode where
  | sleep
  | init
  | normal
deriving DecidableEq, Repr

/-- R23: the host-port phase `hp`. -/
inductive HostPhase where
  | idle
  | initWaitSleep
  | initWaitInit
deriving DecidableEq, Repr

/-- R22: the mode handshake bits. -/
structure ModeCtl where
  sleepRq : Bool
  slak : Bool
  initRq : Bool
  inak : Bool
deriving DecidableEq, Repr

/-- R23: the host-port phase and the latched INIT operands
(`hpMode` = silm ++ lbkm, `hpPol` = txfp ++ rflm ++ art ++ awum ++ abom ++ ttcm, R110). -/
structure HostPort where
  hp : HostPhase
  hpMode : BitVec 2
  hpBaud : BitVec 3
  hpPol : BitVec 6
deriving DecidableEq, Repr

/-- R24 to R26: the eleven configuration fields. The output port `cfg_out` is exactly this record (R40). -/
structure Cfg where
  lbkm : Bool
  silm : Bool
  ttcm : Bool
  abom : Bool
  awum : Bool
  art : Bool
  rflm : Bool
  txfp : Bool
  ts1 : BitVec 4
  ts2 : BitVec 3
  brp : BitVec 10
deriving DecidableEq, Repr

/-- R27: the content fields of a transmit mailbox. -/
structure Mailbox where
  ide : Bool
  rtr : Bool
  stid : BitVec 11
  exid : BitVec 18
  dlc : BitVec 4
  tgt : Bool
  data : Payload
deriving DecidableEq, Repr

/-- R28: the six flags of a transmit mailbox. -/
structure MbFlags where
  tme : Bool
  rqcp : Bool
  txok : Bool
  alst : Bool
  terr : Bool
  abrt : Bool
deriving DecidableEq, Repr

/-- A frame on its way (R168, R193). -/
structure Frame where
  ide : Bool
  rtr : Bool
  stid : BitVec 11
  exid : BitVec 18
  dlc : BitVec 4
  data : Payload
deriving DecidableEq, Repr

/-- What `Out(bus_tx, frame)` emits: the frame (R168) and the mailbox's time-stamp-transmit flag, which R170
says is carried on `bus_tx`. DEDUCED, entry 11. -/
structure BusFrame where
  frame : Frame
  tgt : Bool
deriving DecidableEq, Repr

/-- R32: a FIFO slot: the frame fields, the filter-match index and the time-stamp. -/
structure Slot where
  frame : Frame
  fmi : BitVec 8
  ts : BitVec 16
deriving DecidableEq, Repr

/-- R31: a receive FIFO. -/
structure Fifo where
  fmp : BitVec 2
  full : Bool
  fovr : Bool
  head : Fin 3
  slot : Vector Slot 3
deriving DecidableEq, Repr

/-- R33 to R35: the filter-init bit, the four per-bank bit vectors and the filter registers. -/
structure Filters where
  finit : Bool
  act : BitVec 14
  fbm : BitVec 14
  fsc : BitVec 14
  ffa : BitVec 14
  fr1 : Vector Word 14
  fr2 : Vector Word 14
deriving DecidableEq, Repr

/-- R36, R37: the enable bits, the umbrella error enable and the callback table. -/
structure Notify where
  en : BitVec 19
  errie : Bool
  cb : Vector Word 19
deriving DecidableEq, Repr

/-- R38: the error flags, the error code and its snapshot. -/
structure ErrStatus where
  ewg : Bool
  epv : Bool
  bof : Bool
  merr : Bool
  lec : BitVec 3
  lecSnap : BitVec 3
deriving DecidableEq, Repr

/-- R39: the clear action a vector entry latches. -/
inductive ClearAct where
  | none
  | clrRqcp (m : MbIdx)
  | clrFull (f : FifoIdx)
  | clrFovr (f : FifoIdx)
  | clrEwg
  | clrEpv
  | clrBof
  | clrMerr
deriving DecidableEq, Repr

/-- R39: a dispatcher latch `vl[v]`. -/
structure VLatch where
  valid : Bool
  act : ClearAct
deriving DecidableEq, Repr

/-- R97: the status of an answer. -/
inductive Status where
  | ok
  | failNoMailbox
  | errEmpty
  | errRange
  | errState
  | errProtocol
  | errOpcode
deriving DecidableEq, Repr

/-- R61: the answer to one host transaction: a status and, with `OK`, the result words. -/
structure Answer where
  status : Status
  results : List Word
deriving DecidableEq, Repr

/-- R110, R276: the four collaborator requests of INIT phase P1, opaque tokens (entry 16). -/
inductive CollabReq where
  | portClkEn
  | ctrlClkEn
  | remap
  | pinDirs
deriving DecidableEq, Repr

/-- R166, R167: the outcome the environment draws for a completion. -/
inductive TxOutcome where
  | ok
  | arbLost
  | txError
  | abort
deriving DecidableEq, Repr

/-- R11, R103: an agent step with the arguments the environment draws. -/
inductive AgentStep where
  /-- ModeEngine.AckWake (R112). -/
  | ackWake
  /-- ModeEngine.AckInit (R112). -/
  | ackInit
  /-- ModeEngine.AckRun (R112). -/
  | ackRun
  /-- TxEngine.Complete (R166). -/
  | txComplete (m : MbIdx) (outcome : TxOutcome) (ts : BitVec 16) (pad : Payload)
  /-- RxEngine.BusRx (R193). -/
  | busRx (ide rtr : Bool) (id : Word) (dlc : BitVec 4) (payload : Payload) (ts : BitVec 16)
  /-- ErrEngine.Warn (R271). -/
  | errWarn
  /-- ErrEngine.Passive (R271). -/
  | errPassive
  /-- ErrEngine.BusOff (R271). -/
  | errBusOff
  /-- ErrEngine.BusErr (R271). -/
  | errBusErr (c : BitVec 3)
deriving DecidableEq, Repr

/-- The elements R43 marks "unspecified" after reset: what the environment draws at a reset. -/
structure ResetDraw where
  hpMode : BitVec 2
  hpBaud : BitVec 3
  hpPol : BitVec 6
  cfg : Cfg
  mb : Vector Mailbox 3
  slot : Vector (Vector Slot 3) 2
  fr1 : Vector Word 14
  fr2 : Vector Word 14
  vlAct : Vector ClearAct 3
deriving DecidableEq, Repr

/-- Who moves next (R11, R41, R66): the host port, an agent, or the reset input. DESIGN CHOICE, entry 1. -/
inductive Turn where
  | host
  | agent (a : AgentStep)
  | reset (d : ResetDraw)
deriving DecidableEq, Repr

end Sys2Proof.Machine
end

