-- ==== Sys2Proof/Config.lean ====
section
/-! DEFINITION. The implementation parameters the spec leaves open (00_scope.md R7, 92_eei_decisions.md §8), and
the free values of states no run reaches. A constant declared `opaque` here has no body a proof can see. -/

namespace Sys2Proof

/-- One entry of the bit-timing table, in the legal ranges of R7 and R113; an entry outside them is not a
legal table (U25) and this type excludes it. -/
structure BaudEntry where
  ts1 : Nat := 1
  ts2 : Nat := 1
  brp : Nat := 1
  ts1_range : 1 ≤ ts1 ∧ ts1 ≤ 16 := by decide
  ts2_range : 1 ≤ ts2 ∧ ts2 ≤ 8 := by decide
  brp_range : 1 ≤ brp ∧ brp ≤ 1024 := by decide
deriving DecidableEq, Repr, Inhabited

/-- R7 `BAUD_TABLE`, OPEN: seven entries, none of them given (N4). Free value, entry 7. -/
opaque Config.baudTable : Fin 7 → BaudEntry

/-- The entry for `hp_baud = 7`, which INIT refuses (R83) and no run latches. Free value, entry 7. -/
opaque Config.baudReserved : BaudEntry

/-- `code` when no mailbox is empty and none is queued, which R42 (a) rules out. Free value, entry 9. -/
opaque Config.codeUnreachable : MbIdx

/-- R163: a total order on the pending mailboxes other than `PrioOrder`, as a key on mailboxes computed from
`txfp`, `txq` and the mailbox contents (ties go to the lower index). Free value, entry 8. -/
opaque Config.otherTxKey : Bool → List MbIdx → Vector Machine.Mailbox 3 → MbIdx → Nat

/-- R7 `TX_PRIORITY`, OPEN: its default `PrioOrder`, or any other order R163 admits. -/
inductive TxPriority where
  | prioOrder
  | other
deriving DecidableEq, Repr

/-- The open parameters with a default (R7): arguments of the model, fixed for a run (R47). Entry 8. -/
structure Params where
  txPriority : TxPriority
  txOrderStrict : Bool
  artRestricts : Bool
  /-- R7, R112 `MODE_ACK_FAIR`: the premise is assumed. No single step depends on it: it says which infinite
  schedules are admissible (`Admissible`, Machine/Schedule.lean; entry 12). -/
  modeAckFair : Bool
deriving DecidableEq, Repr

/-- The defaults R7 names. -/
def Params.default : Params :=
  { txPriority := .prioOrder, txOrderStrict := false, artRestricts := false, modeAckFair := true }

end Sys2Proof
end

