-- ==== Sys2Proof/Machine/State.lean ====
section
/-! DEFINITION. The state of the block (spec 10_state.md), its value after reset (R43), and the reasons a step
can stop. -/

namespace Sys2Proof.Machine

/-- Why the machine stops with a fault: never. The spec gives the block no behaviour that stops it: what it
cannot carry out it refuses with a status and goes on (R260), and a hang of INIT is a legal run that raises
nothing (R116, R304). Nothing raises a fault; entry 18. -/
inductive Fault where
deriving DecidableEq, Repr

/-- Why an instruction has no meaning. -/
inductive Refusal where
  /-- Raised by `exec` for an instruction that has no meaning in the model yet. Safe: the model stops where the
  hardware goes on. No arm of `exec` raises it now. -/
  | notModelled (mnemonic : String)
deriving DecidableEq, Repr

/-- The whole state. The first twelve fields are the spec's (R22 to R39); the last six are the model's own:
the parameters of R7, the inputs the outside has supplied, and what the block has put out. -/
structure State where
  /-- R22. -/
  mc : ModeCtl
  /-- R23. -/
  hpt : HostPort
  /-- R24 to R26; also the output `cfg_out` (R40). -/
  cfg : Cfg
  /-- R27. -/
  mb : Vector Mailbox 3
  /-- R28. -/
  mf : Vector MbFlags 3
  /-- R29: the pending mailboxes, oldest request first. -/
  txq : List MbIdx
  /-- R31, R32. -/
  fifo : Vector Fifo 2
  /-- R33 to R35. -/
  flt : Filters
  /-- R36, R37. -/
  ntf : Notify
  /-- R38. -/
  err : ErrStatus
  /-- R39. -/
  vl : Vector VLatch 3
  /-- The open parameters of R7; no step changes them (entry 8). -/
  par : Params
  /-- The words the host has presented and the block has not taken (R61; entry 2). -/
  port : List Word
  /-- The turns the environment has drawn (R11, R66; entry 1). -/
  sched : List Turn
  /-- The answers given, oldest first (R61; entry 4). -/
  answers : List Answer
  /-- The collaborator requests emitted on `collab`, oldest first (R40; entry 4). -/
  collab : List CollabReq
  /-- The frames emitted on `bus_tx`, oldest first (R40; entry 4). -/
  busTx : List BusFrame
deriving DecidableEq, Repr

/-- R43: an empty mailbox with no completion flag. -/
def MbFlags.reset : MbFlags :=
  { tme := true, rqcp := false, txok := false, alst := false, terr := false, abrt := false }

/-- R43: an empty FIFO; the slots hold what the environment draws. -/
def Fifo.resetWith (slot : Vector Slot 3) : Fifo :=
  { fmp := 0, full := false, fovr := false, head := 0, slot := slot }

/-- R43: the state after reset, for the environment's draw `d` of the unspecified elements. The input and
output lists are empty here. -/
def State.resetWith (d : ResetDraw) (par : Params) : State :=
  { mc := { sleepRq := true, slak := true, initRq := false, inak := false }
    hpt := { hp := .idle, hpMode := d.hpMode, hpBaud := d.hpBaud, hpPol := d.hpPol }
    cfg := d.cfg
    mb := d.mb
    mf := #v[MbFlags.reset, MbFlags.reset, MbFlags.reset]
    txq := []
    fifo := #v[Fifo.resetWith d.slot[0], Fifo.resetWith d.slot[1]]
    flt := { finit := true, act := 0, fbm := 0, fsc := 0, ffa := 0, fr1 := d.fr1, fr2 := d.fr2 }
    ntf := { en := 0, errie := false, cb := Vector.replicate 19 0 }
    err := { ewg := false, epv := false, bof := false, merr := false, lec := 0, lecSnap := 0 }
    vl := #v[⟨false, d.vlAct[0]⟩, ⟨false, d.vlAct[1]⟩, ⟨false, d.vlAct[2]⟩]
    par := par
    port := []
    sched := []
    answers := []
    collab := []
    busTx := [] }

/-- The draw `State.reset` takes: every unspecified element zero. DESIGN CHOICE, entry 5, unsafe. -/
def ResetDraw.zero : ResetDraw :=
  { hpMode := 0
    hpBaud := 0
    hpPol := 0
    cfg := ⟨false, false, false, false, false, false, false, false, 0, 0, 0⟩
    mb := Vector.replicate 3 ⟨false, false, 0, 0, 0, false, Vector.replicate 8 0⟩
    slot := Vector.replicate 2 (Vector.replicate 3 ⟨⟨false, false, 0, 0, 0, Vector.replicate 8 0⟩, 0, 0⟩)
    fr1 := Vector.replicate 14 0
    fr2 := Vector.replicate 14 0
    vlAct := Vector.replicate 3 .none }

/-- The machine right after reset: R43's values, the unspecified elements at the model's choice (entry 5), the
parameters at the spec's defaults (R7). -/
def State.reset : State := State.resetWith ResetDraw.zero Params.default

/-- What an operation answers with: the three outcomes of the host's interface. -/
abbrev Result := Host.Outcome State Fault Refusal

end Sys2Proof.Machine
end

