-- ==== Sys2Proof/Machine/Operands.lean ====
section
/-! DEFINITION. Operand assembly and result layouts (spec 30_encoding.md R84 to R100, 41_filter.md R132,
42_transmit.md R163): pure functions of words and records, no state. -/

namespace Sys2Proof.Machine

/-! Index operands: a field's value as an index, none where R101 reserves it. -/

/-- R84, R90: bank 0 to 13. -/
def bankIdx (bank : BitVec 4) : Option BankIdx :=
  if h : bank.toNat < 14 then some ⟨bank.toNat, h⟩ else none

/-- R87: mailbox 0 to 2. -/
def mbIdx (index : BitVec 2) : Option MbIdx :=
  if h : index.toNat < 3 then some ⟨index.toNat, h⟩ else none

/-- R88: kind 0 to 18. -/
def kindIdx (kind : BitVec 5) : Option KindIdx :=
  if h : kind.toNat < 19 then some ⟨kind.toNat, h⟩ else none

/-- R89: vector 0 to 2. -/
def vecIdx (vector : BitVec 2) : Option VecIdx :=
  if h : vector.toNat < 3 then some ⟨vector.toNat, h⟩ else none

/-- R86: both values of a FIFO select are legal. -/
def fifoIdx (fifo : BitVec 1) : FifoIdx := ⟨fifo.toNat, fifo.isLt⟩

/-! Kinds (R96). -/

/-- R96: `k = 3m + j` with `j` 0 done, 1 abort, 2 error. -/
def mbKind (m : MbIdx) (j : Fin 3) : KindIdx := ⟨3 * m.val + j.val, by omega⟩

/-- R96: `k = 9 + 3f + j` with `j` 0 pending, 1 full, 2 overflow. -/
def fifoKind (f : FifoIdx) (j : Fin 3) : KindIdx := ⟨9 + 3 * f.val + j.val, by omega⟩

/-- R96, R262: the vector that dispatches a kind. -/
def kindVector (k : KindIdx) : VecIdx := if k.val < 9 then 0 else if k.val < 12 then 1 else 2

/-! Identifiers (R91). -/

/-- R91 `IdSplit`: the 11-bit and 18-bit parts of an identifier. -/
def idSplit (ide : Bool) (id : Word) : BitVec 11 × BitVec 18 :=
  if ide then (fieldOf id 18 11, fieldOf id 0 18) else (fieldOf id 0 11, 0)

/-- R91 `IdJoin`: the identifier right-aligned in a word. -/
def idJoin (ide : Bool) (stid : BitVec 11) (exid : BitVec 18) : Word :=
  if ide then fieldAt 18 stid ||| fieldAt 0 exid else fieldAt 0 stid

/-! Payload lanes (R62, R92). -/

/-- The payload whose byte `i` is `g i`. -/
def bytes8 (g : Fin 8 → Byte) : Payload := #v[g 0, g 1, g 2, g 3, g 4, g 5, g 6, g 7]

/-- R92 `DataUnpack`: byte i of the low word for i in 0..3, byte i-4 of the high word for i in 4..7. -/
def dataUnpack (lo hi : Word) : Payload :=
  #v[fieldOf lo 0 8, fieldOf lo 8 8, fieldOf lo 16 8, fieldOf lo 24 8,
    fieldOf hi 0 8, fieldOf hi 8 8, fieldOf hi 16 8, fieldOf hi 24 8]

/-- R92 `DataPack`, low word: bytes 0 to 3. -/
def dataPackLo (d : Payload) : Word := fieldAt 0 d[0] ||| fieldAt 8 d[1] ||| fieldAt 16 d[2] ||| fieldAt 24 d[3]

/-- R92 `DataPack`, high word: bytes 4 to 7. -/
def dataPackHi (d : Payload) : Word := fieldAt 0 d[4] ||| fieldAt 8 d[5] ||| fieldAt 16 d[6] ||| fieldAt 24 d[7]

/-- R192: bytes at positions `dlc` and above read 0. -/
def zeroFill (dlc : BitVec 4) (d : Payload) : Payload :=
  bytes8 fun i => if i.val < dlc.toNat then d[i] else 0

/-! Filters (R93, R94, R132). -/

/-- R93 `FilterPack`, from the operand words `w0` = IH ++ IL and `w1` = MH ++ ML (R84). -/
def filterPack (fsc : Bool) (w0 w1 : Word) : Word × Word :=
  if fsc then (w0, w1)
  else (fieldAt 16 (fieldOf w1 0 16) ||| fieldAt 0 (fieldOf w0 0 16),
    fieldAt 16 (fieldOf w1 16 16) ||| fieldAt 0 (fieldOf w0 16 16))

/-- R94 `Image32`: what the matcher compares filter registers with. -/
def image32 (fr : Frame) : Word :=
  bitAt 31 fr.ide ||| bitAt 30 fr.rtr ||| fieldAt 27 (fr.exid.extractLsb' 16 2) ||| fieldAt 16 fr.stid |||
    fieldAt 0 (fr.exid.extractLsb' 0 16)

/-- R94 `Image16`: the high half of the image. -/
def image16 (fr : Frame) : BitVec 16 := fieldOf (image32 fr) 16 16

/-- R132 `BankSel` for a bank in range: the one-hot mask. -/
def bankSel (b : BankIdx) : BitVec 14 := 1#14 <<< b.val

/-- R133: a per-bank bit vector with bit `b` set to `v` (`(x & ~sel) | (v ? sel : 0)`). -/
def putBank (x : BitVec 14) (b : BankIdx) (v : Bool) : BitVec 14 :=
  (x &&& ~~~(bankSel b)) ||| (if v then bankSel b else 0)

/-! Enable bits (R36). -/

/-- The one-hot mask of a kind. -/
def kindSel (k : KindIdx) : BitVec 19 := 1#19 <<< k.val

/-- R230, R231: `en[k] <- v`. -/
def putKind (x : BitVec 19) (k : KindIdx) (v : Bool) : BitVec 19 :=
  (x &&& ~~~(kindSel k)) ||| (if v then kindSel k else 0)

/-! Bit timing and the latched INIT operands (R95, R110, R113). -/

/-- R95 `BtField`. -/
def btField (v : Nat) : Nat := v - 1

/-- R110: `silm ++ lbkm`. -/
def packMode (silm lbkm : Bool) : BitVec 2 := BitVec.ofBool silm ++ BitVec.ofBool lbkm

/-- R110: `txfp ++ rflm ++ art ++ awum ++ abom ++ ttcm`. -/
def packPolicies (ttcm abom awum art rflm txfp : Bool) : BitVec 6 :=
  BitVec.ofBool txfp ++ BitVec.ofBool rflm ++ BitVec.ofBool art ++ BitVec.ofBool awum ++ BitVec.ofBool abom ++
    BitVec.ofBool ttcm

/-- R7, R13: the table entry a `baud` selection names; 7 is reserved (R83) and never latched. -/
def baudEntry (tbl : Fin 7 → BaudEntry) (baud : BitVec 3) : BaudEntry :=
  if h : baud.toNat < 7 then tbl ⟨baud.toNat, h⟩ else Config.baudReserved

/-! Transmit priority (R163). -/

/-- R163 `ArbKey`. -/
def arbKey (x : Mailbox) : Word :=
  fieldAt 21 x.stid ||| bitAt 20 (if x.ide then true else x.rtr) ||| bitAt 19 x.ide ||| fieldAt 1 x.exid |||
    bitAt 0 (if x.ide then x.rtr else false)

/-! Status codes and result words (R97 to R100). -/

/-- R97: the 8-bit code of a status. -/
def statusCode : Status → Byte
  | .ok => 0x00
  | .failNoMailbox => 0x01
  | .errEmpty => 0x02
  | .errRange => 0x03
  | .errState => 0x04
  | .errProtocol => 0x05
  | .errOpcode => 0x06

/-- R100: a count 0 to 3 in `r0[1:0]`. -/
def countWord (n : Nat) : Word := fieldAt 0 (BitVec.ofNat 2 n)

/-- R98, R191: the four result words of RECEIVE for the slot in the window. -/
def receiveWords (x : Slot) : List Word :=
  let out := zeroFill x.frame.dlc x.frame.data
  [idJoin x.frame.ide x.frame.stid x.frame.exid,
    bitAt 0 x.frame.ide ||| bitAt 1 x.frame.rtr ||| fieldAt 2 x.frame.dlc ||| fieldAt 8 x.fmi ||| fieldAt 16 x.ts,
    dataPackLo out,
    dataPackHi out]

/-- R99: `r0` of VEC_RX0 and VEC_RX1_SCE, and the part of VEC_TX's `r0` that it shares with them. -/
def vectorWord (k : KindIdx) (ev kv call : Bool) : Word :=
  fieldAt 0 (BitVec.ofNat 5 k.val) ||| bitAt 8 ev ||| bitAt 9 kv ||| bitAt 10 call

/-- R99: the part of `r0` only VEC_TX fills: the mailbox and its four outcome flags. -/
def vectorTxWord (m : MbIdx) (fl : MbFlags) : Word :=
  fieldAt 12 (BitVec.ofNat 2 m.val) ||| bitAt 16 fl.txok ||| bitAt 17 fl.alst ||| bitAt 18 fl.terr |||
    bitAt 19 fl.abrt

/-- R100, RD_CFG `r0`. -/
def cfgWord0 (c : Cfg) : Word :=
  bitAt 0 c.lbkm ||| bitAt 1 c.silm ||| bitAt 5 c.ttcm ||| bitAt 6 c.abom ||| bitAt 7 c.awum ||| bitAt 8 c.art |||
    bitAt 9 c.rflm ||| bitAt 10 c.txfp

/-- R100, RD_CFG `r1`. -/
def cfgWord1 (c : Cfg) : Word := fieldAt 0 c.ts1 ||| fieldAt 8 c.ts2 ||| fieldAt 16 c.brp

/-- R100, RD_MSR `r0`. -/
def msrWord (c : ModeCtl) (finit : Bool) : Word :=
  bitAt 0 c.initRq ||| bitAt 1 c.sleepRq ||| bitAt 2 c.inak ||| bitAt 3 c.slak ||| bitAt 4 finit

/-- R100: the five completion flags of a mailbox in RD_TSR, from bit `lo` up. -/
def tsrFlags (lo : Nat) (fl : MbFlags) : Word :=
  bitAt lo fl.rqcp ||| bitAt (lo + 1) fl.txok ||| bitAt (lo + 2) fl.alst ||| bitAt (lo + 3) fl.terr |||
    bitAt (lo + 4) fl.abrt

/-- R100, RD_TSR `r0`. -/
def tsrWord (code : MbIdx) (mf : Vector MbFlags 3) : Word :=
  fieldAt 0 (BitVec.ofNat 2 code.val) ||| bitAt 2 mf[0].tme ||| bitAt 3 mf[1].tme ||| bitAt 4 mf[2].tme |||
    tsrFlags 8 mf[0] ||| tsrFlags 16 mf[1] ||| tsrFlags 24 mf[2]

/-- R100, RD_RFR `r0`. -/
def rfrWord (x : Fifo) : Word := fieldAt 0 x.fmp ||| bitAt 2 x.full ||| bitAt 3 x.fovr

/-- R100, RD_ESR `r0`. -/
def esrWord (e : ErrStatus) : Word :=
  bitAt 0 e.ewg ||| bitAt 1 e.epv ||| bitAt 2 e.bof ||| bitAt 3 e.merr ||| fieldAt 4 e.lec ||| fieldAt 8 e.lecSnap

/-- R100, RD_IER `r0`. -/
def ierWord (n : Notify) : Word := fieldAt 0 n.en ||| bitAt 19 n.errie

/-- R100, RD_FBANK `r0`. -/
def fbankWord (x : Filters) (b : BankIdx) : Word :=
  bitAt 0 (x.act.getLsbD b.val) ||| bitAt 1 (x.fbm.getLsbD b.val) ||| bitAt 2 (x.fsc.getLsbD b.val) |||
    bitAt 3 (x.ffa.getLsbD b.val)

end Sys2Proof.Machine
end

