-- ==== Sys2Proof/Machine/Flags.lean ====
section
/-! DEFINITION. Flags and lines computed from the state: the mode (spec 10_state.md R22), the events and sources
(60_exceptions.md R262), the three interrupt lines (R263 to R265), and the counts. -/

namespace Sys2Proof.Machine

/-- R22: the controller mode. -/
def mode (s : State) : Mode := if s.mc.slak then .sleep else if s.mc.inak then .init else .normal

/-- R40: the level output `cfg_out`. -/
def cfgOut (s : State) : Cfg := s.cfg

/-- R36: the enable bit `en[k]`. -/
def enabled (s : State) (k : KindIdx) : Bool := s.ntf.en.getLsbD k.val

/-- R210: how many mailboxes are empty. -/
def freeCount (s : State) : Nat := s.mf[0].tme.toNat + s.mf[1].tme.toNat + s.mf[2].tme.toNat

/-- R161: some mailbox is empty. -/
def anyEmpty (s : State) : Bool := s.mf[0].tme || s.mf[1].tme || s.mf[2].tme

/-- R263: some mailbox has its request-complete flag set. -/
def anyComplete (s : State) : Bool := s.mf[0].rqcp || s.mf[1].rqcp || s.mf[2].rqcp

/-- R233: the least mailbox with its request-complete flag set. -/
def firstComplete (s : State) : Option MbIdx :=
  if s.mf[0].rqcp then some 0 else if s.mf[1].rqcp then some 1 else if s.mf[2].rqcp then some 2 else none

/-- R45: FIFO `f` holds a frame. -/
def notEmpty (s : State) (f : FifoIdx) : Bool := s.fifo[f].fmp != 0

/-- R262: the event flag of a mailbox kind `3m + j`. -/
def mbEvent (s : State) (m : MbIdx) (j : Fin 3) : Bool :=
  let x := s.mf[m]
  x.rqcp && (if j = 0 then x.txok else if j = 1 then x.abrt else x.alst || x.terr)

/-- R262: the event flag of a FIFO kind `9 + 3f + j`. -/
def fifoEvent (s : State) (f : FifoIdx) (j : Fin 3) : Bool :=
  if j = 0 then notEmpty s f else if j = 1 then s.fifo[f].full else s.fifo[f].fovr

/-- R262: the event flag of kind `k`. -/
def eventFlag (s : State) (k : KindIdx) : Bool :=
  if h : k.val < 9 then mbEvent s ⟨k.val / 3, by omega⟩ ⟨k.val % 3, by omega⟩
  else if h' : k.val < 15 then fifoEvent s ⟨(k.val - 9) / 3, by omega⟩ ⟨(k.val - 9) % 3, by omega⟩
  else if k.val = 15 then s.err.ewg
  else if k.val = 16 then s.err.epv
  else if k.val = 17 then s.err.bof
  else s.err.merr

/-- R263: the enable the nine mailbox kinds share. -/
def txEnable (s : State) : Bool :=
  enabled s 0 || enabled s 1 || enabled s 2 || enabled s 3 || enabled s 4 || enabled s 5 || enabled s 6 ||
    enabled s 7 || enabled s 8

/-- R262: the enable of a source: shared for the mailbox kinds (R263), `en[k]` for the FIFO kinds,
`errie` and `en[k]` for the error kinds. -/
def sourceEnable (s : State) (k : KindIdx) : Bool :=
  if k.val < 9 then txEnable s else if k.val < 15 then enabled s k else s.ntf.errie && enabled s k

/-- R262: a source is active when its flag and its enable are both 1. -/
def sourceActive (s : State) (k : KindIdx) : Bool := sourceEnable s k && eventFlag s k

/-- R263: the transmit line. -/
def irqTx (s : State) : Bool := txEnable s && anyComplete s

/-- R264, and the FIFO part of R265: some FIFO kind of `f` is enabled and flagged. -/
def irqFifo (s : State) (f : FifoIdx) : Bool :=
  (enabled s (fifoKind f 0) && notEmpty s f) || (enabled s (fifoKind f 1) && s.fifo[f].full) ||
    (enabled s (fifoKind f 2) && s.fifo[f].fovr)

/-- The status part of R265. -/
def irqErr (s : State) : Bool :=
  s.ntf.errie &&
    ((enabled s 15 && s.err.ewg) || (enabled s 16 && s.err.epv) || (enabled s 17 && s.err.bof) ||
      (enabled s 18 && s.err.merr))

/-- R40, R263 to R265: the interrupt line of vector `v`. -/
def irq (s : State) (v : VecIdx) : Bool :=
  if v = 0 then irqTx s else if v = 1 then irqFifo s 0 else irqFifo s 1 || irqErr s

end Sys2Proof.Machine
end

