-- ==== Sys2Proof/Machine/Ops.lean ====
section
/-! DEFINITION. The shared operations over the state: answers and refusals (spec 60_exceptions.md R260), named
updates, the transmit arbiter (42_transmit.md R160 to R163), the filter matcher (41_filter.md R135 to R139), the
FIFO (43_receive.md R190, R191), and the entry into and return from a vector service (45_notify.md R232 to
R239), which is this block's form of taking an interrupt and returning from it (R268, R269). -/

namespace Sys2Proof.Machine

/-! Named updates. -/

/-- Write the mode handshake. -/
def State.setMc (s : State) (x : ModeCtl) : State := { s with mc := x }

/-- Write the host-port record. -/
def State.setHpt (s : State) (x : HostPort) : State := { s with hpt := x }

/-- Write the configuration. -/
def State.setCfg (s : State) (x : Cfg) : State := { s with cfg := x }

/-- Write the content of mailbox `m`. -/
def State.setMb (s : State) (m : MbIdx) (x : Mailbox) : State := { s with mb := s.mb.set m.val x }

/-- Write the flags of mailbox `m`. -/
def State.setMf (s : State) (m : MbIdx) (x : MbFlags) : State := { s with mf := s.mf.set m.val x }

/-- Write the request queue. -/
def State.setTxq (s : State) (x : List MbIdx) : State := { s with txq := x }

/-- Write FIFO `f`. -/
def State.setFifo (s : State) (f : FifoIdx) (x : Fifo) : State := { s with fifo := s.fifo.set f.val x }

/-- Write the filter state. -/
def State.setFlt (s : State) (x : Filters) : State := { s with flt := x }

/-- Write the notification table. -/
def State.setNtf (s : State) (x : Notify) : State := { s with ntf := x }

/-- Write the error status. -/
def State.setErr (s : State) (x : ErrStatus) : State := { s with err := x }

/-- Write the latch of vector `v`. -/
def State.setVl (s : State) (v : VecIdx) (x : VLatch) : State := { s with vl := s.vl.set v.val x }

/-- The words left on the host port. -/
def State.setPort (s : State) (ws : List Word) : State := { s with port := ws }

/-- The turns left to come. -/
def State.setSched (s : State) (ts : List Turn) : State := { s with sched := ts }

/-- Give an answer on the host port (R61). -/
def State.answer (s : State) (st : Status) (ws : List Word) : State :=
  { s with answers := s.answers ++ [⟨st, ws⟩] }

/-- Emit collaborator requests (R276). -/
def State.emitCollab (s : State) (rs : List CollabReq) : State := { s with collab := s.collab ++ rs }

/-- Emit a frame on `bus_tx` (R168). -/
def State.emitBus (s : State) (x : BusFrame) : State := { s with busTx := s.busTx ++ [x] }

/-! Answers. -/

/-- R10: `return OK(...)`. -/
def returnOk (ws : List Word) (s : State) : Result := .next (s.answer .ok ws)

/-- R10, R260: `raise <Status>`: the status is answered, no result word, nothing else changes. -/
def raise (st : Status) (s : State) : Result := .next (s.answer st [])

/-! The transmit arbiter. -/

/-- `a` comes no later than `b`: the lower key, then the lower index. -/
def keyLe (key : MbIdx → Nat) (a b : MbIdx) : Bool :=
  decide (key a < key b) || (decide (key a = key b) && decide (a.val ≤ b.val))

/-- Insert into a list sorted by `keyLe`. -/
def insertByKey (key : MbIdx → Nat) (a : MbIdx) : List MbIdx → List MbIdx
  | [] => [a]
  | b :: l => if keyLe key a b then a :: b :: l else b :: insertByKey key a l

/-- The elements of a list, ascending by (key, index). -/
def sortByKey (key : MbIdx → Nat) : List MbIdx → List MbIdx
  | [] => []
  | a :: l => insertByKey key a (sortByKey key l)

/-- R163 `PrioOrder`: the pending mailboxes, highest transmit priority first. -/
def prioOrder (s : State) : List MbIdx :=
  if s.cfg.txfp then sortByKey (fun m => (arbKey s.mb[m]).toNat) s.txq else s.txq

/-- R7, R163 `TX_PRIORITY`: `PrioOrder`, or another order the parameter names (entry 8). -/
def txPriority (s : State) : List MbIdx :=
  match s.par.txPriority with
  | .prioOrder => prioOrder s
  | .other => sortByKey (Config.otherTxKey s.cfg.txfp s.txq s.mb) s.txq

/-- R160: the mailbox code: the least empty mailbox, or with none empty the lowest-priority pending one. -/
def code (s : State) : MbIdx :=
  if s.mf[0].tme then 0
  else if s.mf[1].tme then 1
  else if s.mf[2].tme then 2
  else (txPriority s).getLast?.getD Config.codeUnreachable

/-- R28, R169: the five completion flags cleared. -/
def clearCompletion (x : MbFlags) : MbFlags :=
  { x with rqcp := false, txok := false, alst := false, terr := false, abrt := false }

/-- R161: load mailbox `m` and set its transmit request. -/
def loadAndRequest (m : MbIdx) (x : Mailbox) (s : State) : State :=
  ((s.setMb m x).setMf m { clearCompletion s.mf[m] with tme := false }).setTxq (s.txq ++ [m])

/-! The acceptance-filter matcher. -/

/-- R135: what an entry compares. -/
inductive FilterTest where
  | mask32 (id mask : Word)
  | list32 (id : Word)
  | mask16 (id mask : BitVec 16)
  | list16 (id : BitVec 16)
deriving DecidableEq, Repr

/-- R135: a filter entry with its position in the bank. -/
structure FilterEntry where
  j : Nat
  test : FilterTest
deriving DecidableEq, Repr

/-- R135 `Entries(b)`. -/
def entries (x : Filters) (b : BankIdx) : List FilterEntry :=
  let fr1 := x.fr1[b]
  let fr2 := x.fr2[b]
  if x.fsc.getLsbD b.val then
    if x.fbm.getLsbD b.val then [⟨0, .list32 fr1⟩, ⟨1, .list32 fr2⟩]
    else [⟨0, .mask32 fr1 fr2⟩]
  else
    if x.fbm.getLsbD b.val then
      [⟨0, .list16 (fieldOf fr1 0 16)⟩, ⟨1, .list16 (fieldOf fr1 16 16)⟩,
        ⟨2, .list16 (fieldOf fr2 0 16)⟩, ⟨3, .list16 (fieldOf fr2 16 16)⟩]
    else
      [⟨0, .mask16 (fieldOf fr1 0 16) (fieldOf fr1 16 16)⟩, ⟨1, .mask16 (fieldOf fr2 0 16) (fieldOf fr2 16 16)⟩]

/-- R136 `Hits`: when an entry accepts a frame; a mask bit 1 means the bit must agree. -/
def hits (t : FilterTest) (fr : Frame) : Bool :=
  match t with
  | .mask32 id mask => image32 fr &&& mask == id &&& mask
  | .list32 id => image32 fr == id
  | .mask16 id mask => image16 fr &&& mask == id &&& mask
  | .list16 id => image16 fr == id

/-- The 14 banks in rising order. -/
def allBanks : List BankIdx := [0, 1, 2, 3, 4, 5, 6, 7, 8, 9, 10, 11, 12, 13]

/-- R137: an accepting entry, by its bank and position. -/
structure Hit where
  bank : BankIdx
  j : Nat
deriving DecidableEq, Repr

/-- R137: the hits `H`: the accepting entries of the active banks. -/
def hitList (x : Filters) (fr : Frame) : List Hit :=
  allBanks.flatMap fun b =>
    if x.act.getLsbD b.val then ((entries x b).filter fun e => hits e.test fr).map fun e => ⟨b, e.j⟩ else []

/-- R137: a 32-bit bank ranks before a 16-bit one. -/
def scaleRank (x : Filters) (b : BankIdx) : Nat := if x.fsc.getLsbD b.val then 0 else 1

/-- R137: an identifier-list bank ranks before a mask bank. -/
def listRank (x : Filters) (b : BankIdx) : Nat := if x.fbm.getLsbD b.val then 0 else 1

/-- R137: `h` has a smaller key (scale, mode, bank, position) than `g`. -/
def hitBefore (x : Filters) (h g : Hit) : Bool :=
  if scaleRank x h.bank ≠ scaleRank x g.bank then decide (scaleRank x h.bank < scaleRank x g.bank)
  else if listRank x h.bank ≠ listRank x g.bank then decide (listRank x h.bank < listRank x g.bank)
  else if h.bank.val ≠ g.bank.val then decide (h.bank.val < g.bank.val)
  else decide (h.j < g.j)

/-- R137: the hit with the least key. -/
def leastHit (x : Filters) : List Hit → Option Hit
  | [] => none
  | h :: hs =>
    match leastHit x hs with
    | none => some h
    | some g => if hitBefore x g h then some g else some h

/-- R135 `N(b)`: how many filters bank `b` holds. -/
def nFilters (x : Filters) (b : BankIdx) : Nat := (entries x b).length

/-- R34: the target FIFO of bank `b`. -/
def bankFifo (x : Filters) (b : BankIdx) : FifoIdx := if x.ffa.getLsbD b.val then 1 else 0

/-- R138 `Base(f, b)`: the filters of the lower banks assigned to FIFO `f`. -/
def fmiBase (x : Filters) (f : FifoIdx) (b : BankIdx) : Nat :=
  ((allBanks.filter fun b' => decide (b'.val < b.val) && bankFifo x b' == f).map (nFilters x)).sum

/-- R137 `Match`: the target FIFO and the filter-match index, or none. -/
def matchFrame (x : Filters) (fr : Frame) : Option (FifoIdx × BitVec 8) :=
  match leastHit x (hitList x fr) with
  | none => none
  | some h => some (bankFifo x h.bank, BitVec.ofNat 8 (fmiBase x (bankFifo x h.bank) h.bank + h.j))

/-! The receive FIFOs. -/

/-- `(head + n) mod 3`: the slot `n` behind the window. -/
def slotAt (head : Fin 3) (n : Nat) : Fin 3 := ⟨(head.val + n) % 3, Nat.mod_lt _ (by decide)⟩

/-- R190: a FIFO after an accepted frame arrives for it. -/
def pushSlot (rflm : Bool) (x : Fifo) (y : Slot) : Fifo :=
  if x.fmp.toNat < 3 then
    { x with
      slot := x.slot.set (slotAt x.head x.fmp.toNat).val y
      fmp := x.fmp + 1
      full := x.full || x.fmp.toNat + 1 == 3 }
  else if rflm then { x with fovr := true }
  else { x with fovr := true, slot := x.slot.set (slotAt x.head 2).val y }

/-- R190 `Enqueue`. -/
def enqueue (f : FifoIdx) (fr : Frame) (fmi : BitVec 8) (ts : BitVec 16) (s : State) : State :=
  s.setFifo f (pushSlot s.cfg.rflm s.fifo[f] ⟨fr, fmi, ts⟩)

/-- R139 `Deliver`: the matcher gate. -/
def deliver (fr : Frame) (ts : BitVec 16) (s : State) : State :=
  if s.flt.finit then s
  else
    match matchFrame s.flt fr with
    | none => s
    | some (f, fmi) => enqueue f fr fmi ts s

/-- R31: the slot the host sees. -/
def window (x : Fifo) : Slot := x.slot[x.head]

/-- R191: release the window: advance the head, lower the count. -/
def releaseSlot (x : Fifo) : Fifo := { x with head := slotAt x.head 1, fmp := x.fmp - 1 }

/-! Vector services: entry and return. -/

/-- R232: a link of a dispatch chain: kind, predicate, clear action. -/
structure Link where
  kind : KindIdx
  pred : Bool
  act : ClearAct
deriving DecidableEq, Repr

/-- R232 `Chain`: the first link whose predicate holds. -/
def chain : List Link → Option Link
  | [] => none
  | l :: ls => if l.pred then some l else chain ls

/-- R237 `RxChain(f)`. -/
def rxChain (s : State) (f : FifoIdx) : List Link :=
  [⟨fifoKind f 0, enabled s (fifoKind f 0) && notEmpty s f, .none⟩,
    ⟨fifoKind f 1, enabled s (fifoKind f 1) && s.fifo[f].full, .clrFull f⟩,
    ⟨fifoKind f 2, enabled s (fifoKind f 2) && s.fifo[f].fovr, .clrFovr f⟩]

/-- R238 `SceChain`. -/
def sceChain (s : State) : List Link :=
  [⟨15, s.ntf.errie && enabled s 15 && s.err.ewg, .clrEwg⟩,
    ⟨16, s.ntf.errie && enabled s 16 && s.err.epv, .clrEpv⟩,
    ⟨17, s.ntf.errie && enabled s 17 && s.err.bof, .clrBof⟩,
    ⟨18, s.ntf.errie && enabled s 18 && s.err.merr, .clrMerr⟩]

/-- R37: the handle of kind `k` is not the null callback. -/
def hasCallback (s : State) (k : KindIdx) : Bool := s.ntf.cb[k] != 0

/-- R239 `Entry`: select at most one event of the chain, latch its clear action, answer kind and handle. -/
def vectorEntry (v : VecIdx) (links : List Link) (s : State) : Result :=
  match chain links with
  | none => returnOk [0, 0] (s.setVl v ⟨true, .none⟩)
  | some l =>
    let t := if l.kind = 18 then s.setErr { s.err with lecSnap := s.err.lec } else s
    let call := hasCallback s l.kind
    returnOk [vectorWord l.kind true true call, if call then s.ntf.cb[l.kind] else 0] (t.setVl v ⟨true, l.act⟩)

/-- R236: perform a latched clear. -/
def clearFlag (a : ClearAct) (s : State) : State :=
  match a with
  | .none => s
  | .clrRqcp m => s.setMf m (clearCompletion s.mf[m])
  | .clrFull f => s.setFifo f { s.fifo[f] with full := false }
  | .clrFovr f => s.setFifo f { s.fifo[f] with fovr := false }
  | .clrEwg => s.setErr { s.err with ewg := false }
  | .clrEpv => s.setErr { s.err with epv := false }
  | .clrBof => s.setErr { s.err with bof := false }
  | .clrMerr => s.setErr { s.err with merr := false }

/-- R236, R269: the return from a vector service: the latched clear, then the latch becomes invalid. -/
def vectorReturn (v : VecIdx) (s : State) : State :=
  (clearFlag s.vl[v].act s).setVl v ⟨false, s.vl[v].act⟩

end Sys2Proof.Machine
end

