-- ==== Sys2Proof/Machine/Agents.lean ====
section
/-! DEFINITION. The hardware agents' steps (spec 40_mode_control.md R112, 42_transmit.md R166 to R170,
43_receive.md R193, 60_exceptions.md R271) and the reset input (70_reset_and_hazards.md R300, R301). An agent step
that is not enabled does not happen (R11): its turn leaves the state as it is (entry 10). -/

namespace Sys2Proof.Machine

/-- R168: byte `i` of the frame a successful completion of mailbox content `x` sends. -/
def sentByte (x : Mailbox) (ttcm : Bool) (pad : Payload) (i : Fin 8) : Byte :=
  if i.val < x.dlc.toNat ∧ x.rtr = false ∧ ¬(x.tgt = true ∧ ttcm = true ∧ x.dlc = 8 ∧ 6 ≤ i.val) then x.data[i]
  else pad[i]

/-- R168, R170: the frame a successful completion sends. -/
def sentFrame (x : Mailbox) (ttcm : Bool) (pad : Payload) : Frame :=
  { ide := x.ide
    rtr := x.rtr
    stid := x.stid
    exid := x.exid
    dlc := x.dlc
    data := bytes8 (sentByte x ttcm pad) }

/-- R168 `Sent`: emit on `bus_tx` unless silent, deliver to the own receive path in loopback. -/
def sent (x : Mailbox) (ts : BitVec 16) (pad : Payload) (s : State) : State :=
  let fr := sentFrame x s.cfg.ttcm pad
  let s1 := if s.cfg.silm then s else s.emitBus ⟨fr, x.tgt⟩
  if s.cfg.lbkm then deliver fr ts s1 else s1

/-- R166: the flags of a mailbox after a completion with outcome `o`. -/
def completedFlags (o : TxOutcome) (x : MbFlags) : MbFlags :=
  match o with
  | .ok => { x with tme := true, rqcp := true, txok := true }
  | .arbLost => { x with tme := true, rqcp := true, alst := true }
  | .txError => { x with tme := true, rqcp := true, terr := true }
  | .abort => { x with tme := true, rqcp := true, abrt := true }

/-- R167: the outcome is allowed; `ART_RESTRICTS` with `art` = 1 rules out the two failures. -/
def outcomeAllowed (s : State) (o : TxOutcome) : Bool :=
  match o with
  | .ok => true
  | .abort => true
  | .arbLost => !(s.par.artRestricts && s.cfg.art)
  | .txError => !(s.par.artRestricts && s.cfg.art)

/-- R166: mailbox `m` may complete next. -/
def mayComplete (s : State) (m : MbIdx) : Bool :=
  !s.par.txOrderStrict || (txPriority s).head? == some m

/-- R166 TxEngine.Complete, the effect. -/
def complete (m : MbIdx) (o : TxOutcome) (ts : BitVec 16) (pad : Payload) (s : State) : State :=
  let s1 := (s.setMf m (completedFlags o s.mf[m])).setTxq (s.txq.filter fun x => x != m)
  if o = .ok then sent s.mb[m] ts pad s1 else s1

/-- R193: the frame BusRx delivers. -/
def busFrame (ide rtr : Bool) (id : Word) (dlc : BitVec 4) (payload : Payload) : Frame :=
  { ide := ide
    rtr := rtr
    stid := (idSplit ide id).1
    exid := (idSplit ide id).2
    dlc := dlc
    data := payload }

/-- R11: when an agent step is enabled. -/
def agentEnabled (a : AgentStep) (s : State) : Bool :=
  match a with
  | .ackWake => !s.mc.sleepRq && s.mc.slak
  | .ackInit => s.mc.initRq && !s.mc.inak && !s.mc.slak
  | .ackRun => !s.mc.initRq && s.mc.inak
  | .txComplete m o _ _ => mode s == .normal && !s.mf[m].tme && mayComplete s m && outcomeAllowed s o
  | .busRx ide _ id dlc _ _ => mode s == .normal && decide (dlc.toNat ≤ 8) && idInRange ide id
  | .errWarn => true
  | .errPassive => true
  | .errBusOff => true
  | .errBusErr c => c != 0

/-- The effect of an enabled agent step. -/
def agentEffect (a : AgentStep) (s : State) : State :=
  match a with
  | .ackWake => s.setMc { s.mc with slak := false }
  | .ackInit => s.setMc { s.mc with inak := true }
  | .ackRun => s.setMc { s.mc with inak := false }
  | .txComplete m o ts pad => complete m o ts pad s
  | .busRx ide rtr id dlc payload ts => deliver (busFrame ide rtr id dlc payload) ts s
  | .errWarn => s.setErr { s.err with ewg := true }
  | .errPassive => s.setErr { s.err with epv := true }
  | .errBusOff => s.setErr { s.err with bof := true }
  | .errBusErr c => s.setErr { s.err with merr := true, lec := c }

/-- The turn of an agent. -/
def agentTurn (a : AgentStep) (s : State) : State := if agentEnabled a s then agentEffect a s else s

/-- R301: the reset input, asserted and released: every state element at its reset value, the unspecified ones
as drawn. An INIT suspended at a wait is abandoned without an answer. The parameters, the inputs still to come
and the record of what was put out are not state of the block and stay (entry 6). -/
def resetTurn (d : ResetDraw) (s : State) : State :=
  { State.resetWith d s.par with
    port := s.port
    sched := s.sched
    answers := s.answers
    collab := s.collab
    busTx := s.busTx }

end Sys2Proof.Machine
end

