-- ==== Sys2Proof/Syntax.lean ====
section
/-! DEFINITION. The 23 host operations (spec 30_encoding.md R81), one constructor per row of the opcode table.
Every constructor carries every bit of its command word and every operand word of its format (R82 to R90): the
last field `rsvd` of a command word holds the bits R80 reserves. A term with a reserved bit or a reserved field
value is ill formed (WellFormed.lean); the operation answers ERR_RANGE to it (R101, R260). -/

namespace Sys2Proof

/-- The opcode map's rows by name (R81). -/
inductive Op where
  | init | start | finitEnter | finitExit | cfgFilter | transmit | receive | freeCount | mboxPending
  | fifoCount | notifyEn | notifyDis | vecTx | vecRx0 | vecRx1Sce | vecDone
  | rdCfg | rdMsr | rdTsr | rdRfr | rdEsr | rdIer | rdFbank
deriving DecidableEq, Repr

/-- A host operation with its fields and operand words. -/
inductive Instr where
  /-- INIT, format I (R83). -/
  | init (lbkm silm : Bool) (baud : BitVec 3) (ttcm abom awum art rflm txfp : Bool) (rsvd : BitVec 13)
  /-- START, format Z (R82). -/
  | start (rsvd : BitVec 24)
  /-- FINIT_ENTER, format Z. -/
  | finitEnter (rsvd : BitVec 24)
  /-- FINIT_EXIT, format Z. -/
  | finitExit (rsvd : BitVec 24)
  /-- CFG_FILTER, format C (R84): `w0` = IdHigh ++ IdLow, `w1` = MaskHigh ++ MaskLow. -/
  | cfgFilter (bank : BitVec 4) (fbm fsc ffa : Bool) (rsvd : BitVec 17) (w0 w1 : Word)
  /-- TRANSMIT, format T (R85): `w0` the identifier, `w1`, `w2` the payload. -/
  | transmit (ide rtr : Bool) (dlc : BitVec 4) (tgt : Bool) (rsvd : BitVec 17) (w0 w1 w2 : Word)
  /-- RECEIVE, format F (R86). -/
  | receive (fifo : BitVec 1) (rsvd : BitVec 23)
  /-- FREE_COUNT, format Z. -/
  | freeCount (rsvd : BitVec 24)
  /-- MBOX_PENDING, format M (R87). -/
  | mboxPending (index : BitVec 2) (rsvd : BitVec 22)
  /-- FIFO_COUNT, format F. -/
  | fifoCount (fifo : BitVec 1) (rsvd : BitVec 23)
  /-- NOTIFY_EN, format K (R88): `h` the callback handle. -/
  | notifyEn (kind : BitVec 5) (rsvd : BitVec 19) (h : Word)
  /-- NOTIFY_DIS, format K. -/
  | notifyDis (kind : BitVec 5) (rsvd : BitVec 19)
  /-- VEC_TX, format Z. -/
  | vecTx (rsvd : BitVec 24)
  /-- VEC_RX0, format Z. -/
  | vecRx0 (rsvd : BitVec 24)
  /-- VEC_RX1_SCE, format Z. -/
  | vecRx1Sce (rsvd : BitVec 24)
  /-- VEC_DONE, format V (R89). -/
  | vecDone (vector : BitVec 2) (rsvd : BitVec 22)
  /-- RD_CFG, format Z. -/
  | rdCfg (rsvd : BitVec 24)
  /-- RD_MSR, format Z. -/
  | rdMsr (rsvd : BitVec 24)
  /-- RD_TSR, format Z. -/
  | rdTsr (rsvd : BitVec 24)
  /-- RD_RFR, format F. -/
  | rdRfr (fifo : BitVec 1) (rsvd : BitVec 23)
  /-- RD_ESR, format Z. -/
  | rdEsr (rsvd : BitVec 24)
  /-- RD_IER, format Z. -/
  | rdIer (rsvd : BitVec 24)
  /-- RD_FBANK, format B (R90). -/
  | rdFbank (bank : BitVec 4) (rsvd : BitVec 20)
deriving DecidableEq, Repr

/-- The row of the opcode map an operation belongs to. -/
def Instr.op : Instr → Op
  | .init .. => .init
  | .start .. => .start
  | .finitEnter .. => .finitEnter
  | .finitExit .. => .finitExit
  | .cfgFilter .. => .cfgFilter
  | .transmit .. => .transmit
  | .receive .. => .receive
  | .freeCount .. => .freeCount
  | .mboxPending .. => .mboxPending
  | .fifoCount .. => .fifoCount
  | .notifyEn .. => .notifyEn
  | .notifyDis .. => .notifyDis
  | .vecTx .. => .vecTx
  | .vecRx0 .. => .vecRx0
  | .vecRx1Sce .. => .vecRx1Sce
  | .vecDone .. => .vecDone
  | .rdCfg .. => .rdCfg
  | .rdMsr .. => .rdMsr
  | .rdTsr .. => .rdTsr
  | .rdRfr .. => .rdRfr
  | .rdEsr .. => .rdEsr
  | .rdIer .. => .rdIer
  | .rdFbank .. => .rdFbank

end Sys2Proof
end

