-- ==== Sys2Proof/WellFormed.lean ====
section
/-! DEFINITION. Well-formed operations (spec 30_encoding.md R101): every reserved bit of the command word is 0,
no field holds a reserved value, and the identifier operand of TRANSMIT fits its width. These are exactly the
conditions under which an operation does not answer ERR_RANGE (R260). -/

namespace Sys2Proof

/-- R101, as a test. -/
def Instr.wellFormed : Instr → Bool
  | .init _ _ baud _ _ _ _ _ _ rsvd => rsvd == 0 && baud != 7
  | .start rsvd => rsvd == 0
  | .finitEnter rsvd => rsvd == 0
  | .finitExit rsvd => rsvd == 0
  | .cfgFilter bank _ _ _ rsvd _ _ => rsvd == 0 && decide (bank.toNat < 14)
  | .transmit ide _ dlc _ rsvd w0 _ _ => rsvd == 0 && decide (dlc.toNat ≤ 8) && Machine.idInRange ide w0
  | .receive _ rsvd => rsvd == 0
  | .freeCount rsvd => rsvd == 0
  | .mboxPending index rsvd => rsvd == 0 && index != 3
  | .fifoCount _ rsvd => rsvd == 0
  | .notifyEn kind rsvd _ => rsvd == 0 && decide (kind.toNat ≤ 18)
  | .notifyDis kind rsvd => rsvd == 0 && decide (kind.toNat ≤ 18)
  | .vecTx rsvd => rsvd == 0
  | .vecRx0 rsvd => rsvd == 0
  | .vecRx1Sce rsvd => rsvd == 0
  | .vecDone vector rsvd => rsvd == 0 && vector != 3
  | .rdCfg rsvd => rsvd == 0
  | .rdMsr rsvd => rsvd == 0
  | .rdTsr rsvd => rsvd == 0
  | .rdRfr _ rsvd => rsvd == 0
  | .rdEsr rsvd => rsvd == 0
  | .rdIer rsvd => rsvd == 0
  | .rdFbank bank rsvd => rsvd == 0 && decide (bank.toNat < 14)

/-- The operation is well formed. -/
abbrev Instr.WellFormed (i : Instr) : Prop := i.wellFormed = true

end Sys2Proof
end

