-- ==== Sys2Proof/Decode.lean ====
section
/-! DEFINITION. Decoding a transaction from the words on the host port, and encoding one (spec 30_encoding.md
R80 to R90, R102). The opcode byte alone selects the operation and its number of operand words. -/

namespace Sys2Proof

open Machine (fieldAt bitAt fieldOf bitOf)

/-- A row of the opcode map: opcode, operand words, result words (R81). -/
structure OpRow where
  opcode : BitVec 8
  nIn : Nat
  nOut : Nat
deriving DecidableEq, Repr

/-- R81: the opcode map. -/
def Op.row : Op → OpRow
  | .init => ⟨0x01, 0, 0⟩
  | .start => ⟨0x02, 0, 0⟩
  | .finitEnter => ⟨0x03, 0, 0⟩
  | .finitExit => ⟨0x04, 0, 0⟩
  | .cfgFilter => ⟨0x05, 2, 0⟩
  | .transmit => ⟨0x06, 3, 1⟩
  | .receive => ⟨0x07, 0, 4⟩
  | .freeCount => ⟨0x08, 0, 1⟩
  | .mboxPending => ⟨0x09, 0, 1⟩
  | .fifoCount => ⟨0x0A, 0, 1⟩
  | .notifyEn => ⟨0x0B, 1, 0⟩
  | .notifyDis => ⟨0x0C, 0, 0⟩
  | .vecTx => ⟨0x10, 0, 2⟩
  | .vecRx0 => ⟨0x11, 0, 2⟩
  | .vecRx1Sce => ⟨0x12, 0, 2⟩
  | .vecDone => ⟨0x13, 0, 0⟩
  | .rdCfg => ⟨0x20, 0, 2⟩
  | .rdMsr => ⟨0x21, 0, 1⟩
  | .rdTsr => ⟨0x22, 0, 1⟩
  | .rdRfr => ⟨0x23, 0, 1⟩
  | .rdEsr => ⟨0x24, 0, 1⟩
  | .rdIer => ⟨0x25, 0, 1⟩
  | .rdFbank => ⟨0x26, 0, 3⟩

/-- The 23 operations in the table's order. -/
def allOps : List Op :=
  [.init, .start, .finitEnter, .finitExit, .cfgFilter, .transmit, .receive, .freeCount, .mboxPending,
    .fifoCount, .notifyEn, .notifyDis, .vecTx, .vecRx0, .vecRx1Sce, .vecDone,
    .rdCfg, .rdMsr, .rdTsr, .rdRfr, .rdEsr, .rdIer, .rdFbank]

/-- R80: `cw[31:24]`. -/
def opcodeByte (cw : Word) : BitVec 8 := fieldOf cw 24 8

/-- The operation a command word selects; none is ERR_OPCODE (R101). -/
def opOf (cw : Word) : Option Op := allOps.find? fun op => op.row.opcode == opcodeByte cw

/-- The operation with every field read from the command word and the operand words (R82 to R90). -/
def assemble (op : Op) (cw w0 w1 w2 : Word) : Instr :=
  match op with
  | .init =>
    .init (bitOf cw 0) (bitOf cw 1) (fieldOf cw 2 3) (bitOf cw 5) (bitOf cw 6) (bitOf cw 7) (bitOf cw 8)
      (bitOf cw 9) (bitOf cw 10) (fieldOf cw 11 13)
  | .start => .start (fieldOf cw 0 24)
  | .finitEnter => .finitEnter (fieldOf cw 0 24)
  | .finitExit => .finitExit (fieldOf cw 0 24)
  | .cfgFilter => .cfgFilter (fieldOf cw 0 4) (bitOf cw 4) (bitOf cw 5) (bitOf cw 6) (fieldOf cw 7 17) w0 w1
  | .transmit => .transmit (bitOf cw 0) (bitOf cw 1) (fieldOf cw 2 4) (bitOf cw 6) (fieldOf cw 7 17) w0 w1 w2
  | .receive => .receive (fieldOf cw 0 1) (fieldOf cw 1 23)
  | .freeCount => .freeCount (fieldOf cw 0 24)
  | .mboxPending => .mboxPending (fieldOf cw 0 2) (fieldOf cw 2 22)
  | .fifoCount => .fifoCount (fieldOf cw 0 1) (fieldOf cw 1 23)
  | .notifyEn => .notifyEn (fieldOf cw 0 5) (fieldOf cw 5 19) w0
  | .notifyDis => .notifyDis (fieldOf cw 0 5) (fieldOf cw 5 19)
  | .vecTx => .vecTx (fieldOf cw 0 24)
  | .vecRx0 => .vecRx0 (fieldOf cw 0 24)
  | .vecRx1Sce => .vecRx1Sce (fieldOf cw 0 24)
  | .vecDone => .vecDone (fieldOf cw 0 2) (fieldOf cw 2 22)
  | .rdCfg => .rdCfg (fieldOf cw 0 24)
  | .rdMsr => .rdMsr (fieldOf cw 0 24)
  | .rdTsr => .rdTsr (fieldOf cw 0 24)
  | .rdRfr => .rdRfr (fieldOf cw 0 1) (fieldOf cw 1 23)
  | .rdEsr => .rdEsr (fieldOf cw 0 24)
  | .rdIer => .rdIer (fieldOf cw 0 24)
  | .rdFbank => .rdFbank (fieldOf cw 0 4) (fieldOf cw 4 20)

/-- What the block reads from the words on the host port. -/
inductive Decoded where
  /-- A whole transaction and the words after it. -/
  | ok (i : Instr) (rest : List Word)
  /-- The opcode is none of the 23: the command word alone is consumed (R102). -/
  | unknownOpcode (rest : List Word)
  /-- The transaction's operand words are not all there yet (R61; entry 2). -/
  | incomplete
  /-- Nothing has been presented. -/
  | empty
deriving DecidableEq, Repr

/-- R80, R102: the first transaction of a list of words. -/
def decode : List Word → Decoded
  | [] => .empty
  | cw :: ws =>
    match opOf cw with
    | none => .unknownOpcode ws
    | some op =>
      if ws.length < op.row.nIn then .incomplete
      else .ok (assemble op cw (ws.getD 0 0) (ws.getD 1 0) (ws.getD 2 0)) (ws.drop op.row.nIn)

/-- The words of an instruction given as one number: word j is bits 32j+31 to 32j, four words, every bit
above `nbits` 0. -/
def tableWords (nbits w : Nat) : List Word :=
  let v := w % 2 ^ nbits
  [BitVec.ofNat 32 v, BitVec.ofNat 32 (v / 2 ^ 32), BitVec.ofNat 32 (v / 2 ^ 64), BitVec.ofNat 32 (v / 2 ^ 96)]

/-- The instruction the decoder reads from an instruction numbered as the opcode table numbers it. -/
def decodeTableWord (nbits w : Nat) : Option Instr :=
  match decode (tableWords nbits w) with
  | .ok i _ => some i
  | .unknownOpcode _ => none
  | .incomplete => none
  | .empty => none

/-- How many words a transaction with this command word has (R102). -/
def transactionLength (cw : Word) : Nat :=
  match opOf cw with
  | none => 1
  | some op => 1 + op.row.nIn

/-- The words of exactly one transaction, given as one number. -/
def transactionWords (nbits w : Nat) : List Word :=
  let ws := tableWords nbits w
  ws.take (transactionLength (ws.getD 0 0))

/-- Bits 23 to 0 of the command word (R82 to R90). -/
def fieldsWord : Instr → Word
  | .init lbkm silm baud ttcm abom awum art rflm txfp rsvd =>
    bitAt 0 lbkm ||| bitAt 1 silm ||| fieldAt 2 baud ||| bitAt 5 ttcm ||| bitAt 6 abom ||| bitAt 7 awum |||
      bitAt 8 art ||| bitAt 9 rflm ||| bitAt 10 txfp ||| fieldAt 11 rsvd
  | .start rsvd => fieldAt 0 rsvd
  | .finitEnter rsvd => fieldAt 0 rsvd
  | .finitExit rsvd => fieldAt 0 rsvd
  | .cfgFilter bank fbm fsc ffa rsvd _ _ =>
    fieldAt 0 bank ||| bitAt 4 fbm ||| bitAt 5 fsc ||| bitAt 6 ffa ||| fieldAt 7 rsvd
  | .transmit ide rtr dlc tgt rsvd _ _ _ =>
    bitAt 0 ide ||| bitAt 1 rtr ||| fieldAt 2 dlc ||| bitAt 6 tgt ||| fieldAt 7 rsvd
  | .receive fifo rsvd => fieldAt 0 fifo ||| fieldAt 1 rsvd
  | .freeCount rsvd => fieldAt 0 rsvd
  | .mboxPending index rsvd => fieldAt 0 index ||| fieldAt 2 rsvd
  | .fifoCount fifo rsvd => fieldAt 0 fifo ||| fieldAt 1 rsvd
  | .notifyEn kind rsvd _ => fieldAt 0 kind ||| fieldAt 5 rsvd
  | .notifyDis kind rsvd => fieldAt 0 kind ||| fieldAt 5 rsvd
  | .vecTx rsvd => fieldAt 0 rsvd
  | .vecRx0 rsvd => fieldAt 0 rsvd
  | .vecRx1Sce rsvd => fieldAt 0 rsvd
  | .vecDone vector rsvd => fieldAt 0 vector ||| fieldAt 2 rsvd
  | .rdCfg rsvd => fieldAt 0 rsvd
  | .rdMsr rsvd => fieldAt 0 rsvd
  | .rdTsr rsvd => fieldAt 0 rsvd
  | .rdRfr fifo rsvd => fieldAt 0 fifo ||| fieldAt 1 rsvd
  | .rdEsr rsvd => fieldAt 0 rsvd
  | .rdIer rsvd => fieldAt 0 rsvd
  | .rdFbank bank rsvd => fieldAt 0 bank ||| fieldAt 4 rsvd

/-- R80: the command word. -/
def commandWord (i : Instr) : Word := fieldAt 24 i.op.row.opcode ||| fieldsWord i

/-- The operand words (R84, R85, R88). -/
def operandWords : Instr → List Word
  | .cfgFilter _ _ _ _ _ w0 w1 => [w0, w1]
  | .transmit _ _ _ _ _ w0 w1 w2 => [w0, w1, w2]
  | .notifyEn _ _ h => [h]
  | .init .. | .start .. | .finitEnter .. | .finitExit .. | .receive .. | .freeCount .. | .mboxPending ..
  | .fifoCount .. | .notifyDis .. | .vecTx .. | .vecRx0 .. | .vecRx1Sce .. | .vecDone .. | .rdCfg ..
  | .rdMsr .. | .rdTsr .. | .rdRfr .. | .rdEsr .. | .rdIer .. | .rdFbank .. => []

/-- The words of an operation's transaction (R61, R80). -/
def encode (i : Instr) : List Word := commandWord i :: operandWords i

end Sys2Proof
end

