-- ==== Sys2Proof/Machine/Filter.lean ====
section
/-! DEFINITION. FINIT_ENTER, FINIT_EXIT and CFG_FILTER (spec 41_filter.md R130 to R134). -/

namespace Sys2Proof.Machine

/-- FINIT_ENTER (R130). -/
def execFinitEnter (rsvd : BitVec 24) (s : State) : Result :=
  if rsvd ≠ 0 then raise .errRange s else returnOk [] (s.setFlt { s.flt with finit := true })

/-- FINIT_EXIT (R131). -/
def execFinitExit (rsvd : BitVec 24) (s : State) : Result :=
  if rsvd ≠ 0 then raise .errRange s else returnOk [] (s.setFlt { s.flt with finit := false })

/-- R133: the filter state after bank `b` is configured: deactivate, mode bit, scale bit, the two registers,
FIFO target, reactivate; one atomic step (R134). -/
def configureBank (b : BankIdx) (fbm fsc ffa : Bool) (w0 w1 : Word) (x : Filters) : Filters :=
  let regs := filterPack fsc w0 w1
  { x with
    act := putBank (putBank x.act b false) b true
    fbm := putBank x.fbm b fbm
    fsc := putBank x.fsc b fsc
    ffa := putBank x.ffa b ffa
    fr1 := x.fr1.set b.val regs.1
    fr2 := x.fr2.set b.val regs.2 }

/-- CFG_FILTER (R133): the range of the command word is checked before the state (R261). -/
def execCfgFilter (bank : BitVec 4) (fbm fsc ffa : Bool) (rsvd : BitVec 17) (w0 w1 : Word) (s : State) : Result :=
  if rsvd ≠ 0 then raise .errRange s
  else
    match bankIdx bank with
    | none => raise .errRange s
    | some b =>
      if s.flt.finit then returnOk [] (s.setFlt (configureBank b fbm fsc ffa w0 w1 s.flt))
      else raise .errState s

end Sys2Proof.Machine
end

