-- ==== Sys2Proof/Machine/ModeControl.lean ====
section
/-! DEFINITION. INIT and START (spec 40_mode_control.md R110 to R117). INIT is three atomic phases with a wait
before the second and before the third; the first is the operation's own step, the other two are taken by the
host port while it is suspended (Port.lean). -/

namespace Sys2Proof.Machine

/-- R110 phase P1: the four collaborator requests in the source's order, the sleep request withdrawn, the
operands latched, the host port suspended at the first wait. -/
def initPhase1 (opMode : BitVec 2) (baud : BitVec 3) (pol : BitVec 6) (s : State) : State :=
  ((s.emitCollab [.portClkEn, .ctrlClkEn, .remap, .pinDirs]).setMc { s.mc with sleepRq := false }).setHpt
    { hp := .initWaitSleep, hpMode := opMode, hpBaud := baud, hpPol := pol }

/-- R110 phase P2: the initialization request, then the second wait. -/
def initPhase2 (s : State) : State :=
  (s.setMc { s.mc with initRq := true }).setHpt { s.hpt with hp := .initWaitInit }

/-- R110 phase P3: policy bits, bit timing (table value minus one, R113), mode; the answer OK. -/
def initPhase3 (tbl : Fin 7 → BaudEntry) (s : State) : State :=
  let e := baudEntry tbl s.hpt.hpBaud
  let x : Cfg :=
    { ttcm := s.hpt.hpPol.getLsbD 0
      abom := s.hpt.hpPol.getLsbD 1
      awum := s.hpt.hpPol.getLsbD 2
      art := s.hpt.hpPol.getLsbD 3
      rflm := s.hpt.hpPol.getLsbD 4
      txfp := s.hpt.hpPol.getLsbD 5
      ts1 := BitVec.ofNat 4 (btField e.ts1)
      ts2 := BitVec.ofNat 3 (btField e.ts2)
      brp := BitVec.ofNat 10 (btField e.brp)
      silm := s.hpt.hpMode.getLsbD 1
      lbkm := s.hpt.hpMode.getLsbD 0 }
  ((s.setCfg x).setHpt { s.hpt with hp := .idle }).answer .ok []

/-- INIT (R110): phase P1, or ERR_RANGE for a reserved bit or `baud` = 7. -/
def execInit (lbkm silm : Bool) (baud : BitVec 3) (ttcm abom awum art rflm txfp : Bool) (rsvd : BitVec 13)
    (s : State) : Result :=
  if rsvd ≠ 0 ∨ baud = 7 then raise .errRange s
  else .next (initPhase1 (packMode silm lbkm) baud (packPolicies ttcm abom awum art rflm txfp) s)

/-- START (R111): withdraws the initialization request and does not wait. -/
def execStart (rsvd : BitVec 24) (s : State) : Result :=
  if rsvd ≠ 0 then raise .errRange s else returnOk [] (s.setMc { s.mc with initRq := false })

end Sys2Proof.Machine
end

