-- ==== Sys2Proof/Machine/Notification.lean ====
section
/-! DEFINITION. The notification table and the vector services (spec 45_notify.md R230 to R241). -/

namespace Sys2Proof.Machine

/-- R230: the table after a kind is enabled: handle, enable bit, and the umbrella for the error kinds. -/
def enableKind (k : KindIdx) (h : Word) (x : Notify) : Notify :=
  { en := putKind x.en k true
    errie := x.errie || decide (15 ≤ k.val)
    cb := x.cb.set k.val h }

/-- R231: the table after a kind is disabled; the handle is left as it is. -/
def disableKind (k : KindIdx) (x : Notify) : Notify :=
  { x with
    en := putKind x.en k false
    errie := x.errie && decide (k.val < 15) }

/-- NOTIFY_EN (R230). -/
def execNotifyEn (kind : BitVec 5) (rsvd : BitVec 19) (h : Word) (s : State) : Result :=
  if rsvd ≠ 0 then raise .errRange s
  else
    match kindIdx kind with
    | none => raise .errRange s
    | some k => returnOk [] (s.setNtf (enableKind k h s.ntf))

/-- NOTIFY_DIS (R231). -/
def execNotifyDis (kind : BitVec 5) (rsvd : BitVec 19) (s : State) : Result :=
  if rsvd ≠ 0 then raise .errRange s
  else
    match kindIdx kind with
    | none => raise .errRange s
    | some k => returnOk [] (s.setNtf (disableKind k s.ntf))

/-- R233: the kind of a completed mailbox, by its outcome flags in priority order success, arbitration lost,
transmit error, abort; none when no outcome flag is set. -/
def completionKind (m : MbIdx) (x : MbFlags) : Option KindIdx :=
  if x.txok then some (mbKind m 0)
  else if x.alst then some (mbKind m 2)
  else if x.terr then some (mbKind m 2)
  else if x.abrt then some (mbKind m 1)
  else none

/-- R233: the two result words of VEC_TX for the completed mailbox `m`. -/
def vecTxWords (m : MbIdx) (s : State) : List Word :=
  match completionKind m s.mf[m] with
  | none => [vectorWord 0 true false false ||| vectorTxWord m s.mf[m], 0]
  | some k =>
    let call := enabled s k && hasCallback s k
    [vectorWord k true true call ||| vectorTxWord m s.mf[m], if call then s.ntf.cb[k] else 0]

/-- VEC_TX (R233): the transmit-vector entry; the mailbox is chosen by its request-complete flag alone. -/
def execVecTx (rsvd : BitVec 24) (s : State) : Result :=
  if rsvd ≠ 0 then raise .errRange s
  else if s.vl[(0 : VecIdx)].valid then raise .errProtocol s
  else
    match firstComplete s with
    | none => returnOk [0, 0] (s.setVl 0 ⟨true, .none⟩)
    | some m => returnOk (vecTxWords m s) (s.setVl 0 ⟨true, .clrRqcp m⟩)

/-- VEC_RX0 (R234): the receive-vector entry of FIFO 0. -/
def execVecRx0 (rsvd : BitVec 24) (s : State) : Result :=
  if rsvd ≠ 0 then raise .errRange s
  else if s.vl[(1 : VecIdx)].valid then raise .errProtocol s
  else vectorEntry 1 (rxChain s 0) s

/-- VEC_RX1_SCE (R235): the entry of the third vector, FIFO 1 before the error kinds. -/
def execVecRx1Sce (rsvd : BitVec 24) (s : State) : Result :=
  if rsvd ≠ 0 then raise .errRange s
  else if s.vl[(2 : VecIdx)].valid then raise .errProtocol s
  else vectorEntry 2 (rxChain s 1 ++ sceChain s) s

/-- VEC_DONE (R236): the end of a vector service. -/
def execVecDone (vector : BitVec 2) (rsvd : BitVec 22) (s : State) : Result :=
  if rsvd ≠ 0 then raise .errRange s
  else
    match vecIdx vector with
    | none => raise .errRange s
    | some v => if s.vl[v].valid then returnOk [] (vectorReturn v s) else raise .errProtocol s

end Sys2Proof.Machine
end

