-- ==== Sys2Proof/Machine/Query.lean ====
section
/-! DEFINITION. The status queries and read-back operations (spec 44_status.md R210 to R219). None changes any
state of the block. -/

namespace Sys2Proof.Machine

/-- FREE_COUNT (R210). -/
def execFreeCount (rsvd : BitVec 24) (s : State) : Result :=
  if rsvd ≠ 0 then raise .errRange s else returnOk [countWord (freeCount s)] s

/-- MBOX_PENDING (R211): the request-complete flag. -/
def execMboxPending (index : BitVec 2) (rsvd : BitVec 22) (s : State) : Result :=
  if rsvd ≠ 0 then raise .errRange s
  else
    match mbIdx index with
    | none => raise .errRange s
    | some m => returnOk [bitAt 0 s.mf[m].rqcp] s

/-- FIFO_COUNT (R212). -/
def execFifoCount (fifo : BitVec 1) (rsvd : BitVec 23) (s : State) : Result :=
  if rsvd ≠ 0 then raise .errRange s else returnOk [fieldAt 0 s.fifo[fifoIdx fifo].fmp] s

/-- RD_CFG (R213). -/
def execRdCfg (rsvd : BitVec 24) (s : State) : Result :=
  if rsvd ≠ 0 then raise .errRange s else returnOk [cfgWord0 s.cfg, cfgWord1 s.cfg] s

/-- RD_MSR (R214). -/
def execRdMsr (rsvd : BitVec 24) (s : State) : Result :=
  if rsvd ≠ 0 then raise .errRange s else returnOk [msrWord s.mc s.flt.finit] s

/-- RD_TSR (R215). -/
def execRdTsr (rsvd : BitVec 24) (s : State) : Result :=
  if rsvd ≠ 0 then raise .errRange s else returnOk [tsrWord (code s) s.mf] s

/-- RD_RFR (R216). -/
def execRdRfr (fifo : BitVec 1) (rsvd : BitVec 23) (s : State) : Result :=
  if rsvd ≠ 0 then raise .errRange s else returnOk [rfrWord s.fifo[fifoIdx fifo]] s

/-- RD_ESR (R217). -/
def execRdEsr (rsvd : BitVec 24) (s : State) : Result :=
  if rsvd ≠ 0 then raise .errRange s else returnOk [esrWord s.err] s

/-- RD_IER (R218). -/
def execRdIer (rsvd : BitVec 24) (s : State) : Result :=
  if rsvd ≠ 0 then raise .errRange s else returnOk [ierWord s.ntf] s

/-- RD_FBANK (R219). -/
def execRdFbank (bank : BitVec 4) (rsvd : BitVec 20) (s : State) : Result :=
  if rsvd ≠ 0 then raise .errRange s
  else
    match bankIdx bank with
    | none => raise .errRange s
    | some b => returnOk [fbankWord s.flt b, s.flt.fr1[b], s.flt.fr2[b]] s

end Sys2Proof.Machine
end

