-- ==== Sys2Proof/Machine/Receive.lean ====
section
/-! DEFINITION. RECEIVE (spec 43_receive.md R191, R192). -/

namespace Sys2Proof.Machine

/-- RECEIVE (R191): read the window, zero-fill, and last release it; ERR_EMPTY when nothing is pending. -/
def execReceive (fifo : BitVec 1) (rsvd : BitVec 23) (s : State) : Result :=
  if rsvd ≠ 0 then raise .errRange s
  else if s.fifo[fifoIdx fifo].fmp = 0 then raise .errEmpty s
  else
    returnOk (receiveWords (window s.fifo[fifoIdx fifo]))
      (s.setFifo (fifoIdx fifo) (releaseSlot s.fifo[fifoIdx fifo]))

end Sys2Proof.Machine
end

