-- ==== Sys2Proof/Machine/Transmit.lean ====
section
/-! DEFINITION. TRANSMIT (spec 42_transmit.md R161 to R164). -/

namespace Sys2Proof.Machine

/-- R161: the mailbox content TRANSMIT loads. -/
def mailboxOf (ide rtr : Bool) (dlc : BitVec 4) (tgt : Bool) (w0 w1 w2 : Word) : Mailbox :=
  { ide := ide
    rtr := rtr
    stid := (idSplit ide w0).1
    exid := (idSplit ide w0).2
    dlc := dlc
    tgt := tgt
    data := dataUnpack w1 w2 }

/-- TRANSMIT (R161): range checks, the empty-flag guard (R164), the load and last the request. -/
def execTransmit (ide rtr : Bool) (dlc : BitVec 4) (tgt : Bool) (rsvd : BitVec 17) (w0 w1 w2 : Word)
    (s : State) : Result :=
  if rsvd ≠ 0 ∨ 8 < dlc.toNat then raise .errRange s
  else if idInRange ide w0 = false then raise .errRange s
  else if anyEmpty s = false then raise .failNoMailbox s
  else returnOk [countWord (code s).val] (loadAndRequest (code s) (mailboxOf ide rtr dlc tgt w0 w1 w2) s)

end Sys2Proof.Machine
end

