-- ==== Sys2Proof/Machine/Dispatch.lean ====
section
/-! DEFINITION. The meaning of every host operation (spec 30_encoding.md R81), one arm per row of the opcode
table. -/

namespace Sys2Proof.Machine

def exec (i : Instr) (s : State) : Host.Outcome State Fault Refusal :=
  match i with
  | .init lbkm silm baud ttcm abom awum art rflm txfp rsvd => Sys2Proof.Machine.execInit lbkm silm baud ttcm abom awum art rflm txfp rsvd s
  | .start rsvd => Sys2Proof.Machine.execStart rsvd s
  | .finitEnter rsvd => Sys2Proof.Machine.execFinitEnter rsvd s
  | .finitExit rsvd => Sys2Proof.Machine.execFinitExit rsvd s
  | .cfgFilter bank fbm fsc ffa rsvd w0 w1 => Sys2Proof.Machine.execCfgFilter bank fbm fsc ffa rsvd w0 w1 s
  | .transmit ide rtr dlc tgt rsvd w0 w1 w2 => Sys2Proof.Machine.execTransmit ide rtr dlc tgt rsvd w0 w1 w2 s
  | .receive fifo rsvd => Sys2Proof.Machine.execReceive fifo rsvd s
  | .freeCount rsvd => Sys2Proof.Machine.execFreeCount rsvd s
  | .mboxPending index rsvd => Sys2Proof.Machine.execMboxPending index rsvd s
  | .fifoCount fifo rsvd => Sys2Proof.Machine.execFifoCount fifo rsvd s
  | .notifyEn kind rsvd h => Sys2Proof.Machine.execNotifyEn kind rsvd h s
  | .notifyDis kind rsvd => Sys2Proof.Machine.execNotifyDis kind rsvd s
  | .vecTx rsvd => Sys2Proof.Machine.execVecTx rsvd s
  | .vecRx0 rsvd => Sys2Proof.Machine.execVecRx0 rsvd s
  | .vecRx1Sce rsvd => Sys2Proof.Machine.execVecRx1Sce rsvd s
  | .vecDone vector rsvd => Sys2Proof.Machine.execVecDone vector rsvd s
  | .rdCfg rsvd => Sys2Proof.Machine.execRdCfg rsvd s
  | .rdMsr rsvd => Sys2Proof.Machine.execRdMsr rsvd s
  | .rdTsr rsvd => Sys2Proof.Machine.execRdTsr rsvd s
  | .rdRfr fifo rsvd => Sys2Proof.Machine.execRdRfr fifo rsvd s
  | .rdEsr rsvd => Sys2Proof.Machine.execRdEsr rsvd s
  | .rdIer rsvd => Sys2Proof.Machine.execRdIer rsvd s
  | .rdFbank bank rsvd => Sys2Proof.Machine.execRdFbank bank rsvd s

end Sys2Proof.Machine
end

