-- ==== Sys2Proof/Machine/Port.lean ====
section
/-! DEFINITION. The host port (spec 20_memory.md R61, R65; 40_mode_control.md R110, R116): taking a transaction
when it is idle, continuing a suspended INIT when its wait is over, waiting otherwise; and the turns of R66. -/

namespace Sys2Proof.Machine

/-- R110: the first wait of INIT: phase P2 once `slak` = 0, else nothing (R116). -/
def resumeAtSleepWait (s : State) : State := if s.mc.slak then s else initPhase2 s

/-- R110: the second wait of INIT: phase P3 once `inak` = 1, else nothing (R116). -/
def resumeAtInitWait (s : State) : State := if s.mc.inak then initPhase3 Config.baudTable s else s

/-- R61: the idle host port takes the next whole transaction from the words presented and carries it out; an
unknown opcode consumes its command word and answers ERR_OPCODE (R101, R102); with no whole transaction
presented nothing happens (entries 2 and 3). -/
def acceptTransaction (s : State) : Result :=
  match decode s.port with
  | .ok i rest => exec i (s.setPort rest)
  | .unknownOpcode rest => raise .errOpcode (s.setPort rest)
  | .incomplete => .next s
  | .empty => .next s

/-- One atomic step of the host port (R65). -/
def hostTurn (s : State) : Result :=
  match s.hpt.hp with
  | .idle => acceptTransaction s
  | .initWaitSleep => .next (resumeAtSleepWait s)
  | .initWaitInit => .next (resumeAtInitWait s)

/-- One turn of the environment's schedule (R66). -/
def takeTurn (t : Turn) (s : State) : Result :=
  match t with
  | .host => hostTurn s
  | .agent a => .next (agentTurn a s)
  | .reset d => .next (resetTurn d s)

/-- The next turn and the state without it; with none drawn it is the host port's (entry 1). -/
def nextTurn (s : State) : Turn × State :=
  match s.sched with
  | [] => (.host, s)
  | t :: ts => (t, s.setSched ts)

/-- A whole step. -/
def stepOnce (s : State) : Result := takeTurn (nextTurn s).1 (nextTurn s).2

/-- The state in which the next step takes exactly the transaction made of `ws`: the words are presented first,
the host port is idle and has the next turn (entry 14). -/
def presentTransaction (ws : List Word) (s : State) : State :=
  ((s.setHpt { s.hpt with hp := .idle }).setPort (ws ++ s.port)).setSched (.host :: s.sched)

end Sys2Proof.Machine
end

