-- ==== Sys2Proof/Machine/Step.lean ====
section
/-! DEFINITION. The step of the machine: one turn of the environment's schedule (spec 20_memory.md R65, R66, R69). -/

namespace Sys2Proof.Machine

/-- One atomic step. -/
def step (s : State) : Host.Outcome State Fault Refusal := stepOnce s

/-- `s` with one transaction, numbered as the opcode table numbers it, presented on the host port so that the
next step takes it (entry 14). -/
def State.withFetchWord (s : State) (nbits w : Nat) : State := presentTransaction (transactionWords nbits w) s

end Sys2Proof.Machine
end

