-- ==== Sys2Proof/Machine/Schedule.lean ====
section
/-! DEFINITION. Infinite schedules and the premise MODE_ACK_FAIR on them (spec 00_scope.md R7, 40_mode_control.md
R112): weak fairness of ModeEngine. A schedule is an input of a run and no part of the state. -/

namespace Sys2Proof.Machine

/-- R11, R66: the turns the environment draws, one for every moment of an infinite run. -/
abbrev Schedule := Nat → Turn

/-- The machine's step when the environment draws the turn `t`. No step stops (entry 18), so the last two arms are
never taken. -/
def stateAfter (t : Turn) (s : State) : State :=
  match step (s.setSched [t]) with
  | .next u => u
  | .fault _ => s
  | .refused _ => s

/-- The state after `k` turns of the schedule, from `s`. -/
def stateAt (sch : Schedule) (s : State) : Nat → State
  | 0 => s
  | k + 1 => stateAfter (sch k) (stateAt sch s k)

/-- R112: the agent step `a`, if from some moment on it stays enabled, happens at that moment or later. -/
def WeaklyFair (a : AgentStep) (sch : Schedule) (s : State) : Prop :=
  ∀ n, (∀ k, n ≤ k → agentEnabled a (stateAt sch s k) = true) → ∃ k, n ≤ k ∧ sch k = .agent a

/-- R7, R112 `MODE_ACK_FAIR`: every enabled ModeEngine step that stays enabled eventually happens. -/
def ModeAckFair (sch : Schedule) (s : State) : Prop :=
  WeaklyFair .ackWake sch s ∧ WeaklyFair .ackInit sch s ∧ WeaklyFair .ackRun sch s

/-- The schedules of the block from `s`: with the premise assumed the fair ones, without it all (R7, R116). -/
def Admissible (sch : Schedule) (s : State) : Prop := s.par.modeAckFair = true → ModeAckFair sch s

end Sys2Proof.Machine
end

