-- ==== Sys2Proof/Safety.lean ====
section
/-! DEFINITION. What counts as a good state and a safe run: the invariants of spec 10_state.md R42 and the facts
about pending mailboxes, stored frames, latches and answers they rest on; and the vocabulary the statements use
(the refusal table of R260, the queue a FIFO stands for, the key of a filter hit). -/

namespace Sys2Proof.Machine

/-- R42 (a): a mailbox is pending exactly when it stands in the request queue, and the queue repeats nothing. -/
abbrev PendingInv (s : State) : Prop := (∀ m : MbIdx, s.mf[m].tme = false ↔ m ∈ s.txq) ∧ s.txq.Nodup

/-- R42 (c) and R110: the acknowledgments exclude each other; sleep is left only after it is no longer requested;
an INIT at its first wait has withdrawn the sleep request, at its second wait sleep is left and initialization
requested; the latched `baud` of a suspended INIT is legal. -/
abbrev HandshakeInv (s : State) : Prop :=
  (s.mc.slak = false ∨ s.mc.inak = false) ∧
  (s.mc.slak = false → s.mc.sleepRq = false) ∧
  (s.hpt.hp = .initWaitSleep → s.mc.sleepRq = false) ∧
  (s.hpt.hp = .initWaitInit → s.mc.slak = false ∧ s.mc.initRq = true) ∧
  (s.hpt.hp ≠ .idle → s.hpt.hpBaud ≠ 7)

/-- How many outcome flags of a mailbox are set. -/
def outcomeCount (x : MbFlags) : Nat := x.txok.toNat + x.alst.toNat + x.terr.toNat + x.abrt.toNat

/-- R42 (d), R169: at most one outcome flag is set, the request-complete flag exactly with one; a pending mailbox
has none. -/
abbrev FlagsInv (x : MbFlags) : Prop :=
  outcomeCount x = x.rqcp.toNat ∧ (x.tme = false → x.rqcp = false)

/-- R27, R32, R91: a frame's data-length-code is at most 8 and a standard identifier leaves `exid` 0. -/
abbrev GoodFrame (ide : Bool) (exid : BitVec 18) (dlc : BitVec 4) : Prop :=
  dlc.toNat ≤ 8 ∧ (ide = false → exid = 0)

/-- The content of every pending mailbox is a good frame (R161). -/
abbrev MailboxInv (s : State) : Prop :=
  ∀ m : MbIdx, s.mf[m].tme = false → GoodFrame s.mb[m].ide s.mb[m].exid s.mb[m].dlc

/-- Every stored frame is good and its filter-match index is at most 55 (R138, R190). -/
abbrev FifoInv (x : Fifo) : Prop :=
  ∀ n : Fin 3, n.val < x.fmp.toNat →
    GoodFrame x.slot[slotAt x.head n.val].frame.ide x.slot[slotAt x.head n.val].frame.exid
      x.slot[slotAt x.head n.val].frame.dlc ∧ x.slot[slotAt x.head n.val].fmi.toNat ≤ 55

/-- R233 to R235: which clear actions the latch of a vector can hold. -/
def actFits (v : VecIdx) (a : ClearAct) : Bool :=
  match a with
  | .none => true
  | .clrRqcp _ => v == 0
  | .clrFull f => if f = 0 then v == 1 else v == 2
  | .clrFovr f => if f = 0 then v == 1 else v == 2
  | .clrEwg => v == 2
  | .clrEpv => v == 2
  | .clrBof => v == 2
  | .clrMerr => v == 2

/-- R39: an open service's latch names a flag of its own vector. -/
abbrev LatchInv (s : State) : Prop := ∀ v : VecIdx, s.vl[v].valid = true → actFits v s.vl[v].act = true

/-- R271: a set multi-error flag comes with a code 1 to 7. -/
abbrev ErrInv (s : State) : Prop := s.err.merr = true → s.err.lec ≠ 0

/-- R97, R168: every answer but OK has no result word, and every frame emitted is good. -/
abbrev OutputInv (s : State) : Prop :=
  (∀ a ∈ s.answers, a.status ≠ .ok → a.results = []) ∧
  ∀ x ∈ s.busTx, GoodFrame x.frame.ide x.frame.exid x.frame.dlc

/-- The invariant every step keeps. R42 (b) needs no clause: `fmp` has two bits and `head` is below 3 by type. -/
abbrev Inv (s : State) : Prop :=
  PendingInv s ∧ HandshakeInv s ∧ (∀ m : MbIdx, FlagsInv s.mf[m]) ∧ MailboxInv s ∧
    (∀ f : FifoIdx, FifoInv s.fifo[f]) ∧ LatchInv s ∧ ErrInv s ∧ OutputInv s

/-- A safe run of `k` steps: the machine has not stopped. -/
def RunsFor (k : Nat) (s : State) : Prop := ∃ t, Host.Core.run Sys2Proof.core k s = .next t

/-! The vocabulary of the statements. -/

/-- The next turn of `s` is the host port's, and `u` is `s` without it. -/
def HostMoves (s u : State) : Prop := (s.sched = [] ∧ u = s) ∨ ∃ r, s.sched = .host :: r ∧ u = { s with sched := r }

/-- The next turn of `s` is the agent step `a`, and `u` is `s` without it. -/
def AgentMoves (a : AgentStep) (s u : State) : Prop := ∃ r, s.sched = .agent a :: r ∧ u = { s with sched := r }

/-- R260: the status with which an operation is refused in a state, none when it is carried out; the checks in
R261's order. -/
def refusalOf (i : Instr) (s : State) : Option Status :=
  if i.wellFormed = false then some .errRange
  else
    match i with
    | .cfgFilter .. => if s.flt.finit then none else some .errState
    | .transmit .. => if ∀ m : MbIdx, s.mf[m].tme = false then some .failNoMailbox else none
    | .receive fifo _ => if s.fifo[fifoIdx fifo].fmp = 0 then some .errEmpty else none
    | .vecTx _ => if s.vl[0].valid then some .errProtocol else none
    | .vecRx0 _ => if s.vl[1].valid then some .errProtocol else none
    | .vecRx1Sce _ => if s.vl[2].valid then some .errProtocol else none
    | .vecDone vector _ =>
      match vecIdx vector with
      | none => none
      | some v => if s.vl[v].valid then none else some .errProtocol
    | .init .. => none
    | .start .. => none
    | .finitEnter .. => none
    | .finitExit .. => none
    | .freeCount .. => none
    | .mboxPending .. => none
    | .fifoCount .. => none
    | .notifyEn .. => none
    | .notifyDis .. => none
    | .rdCfg .. => none
    | .rdMsr .. => none
    | .rdTsr .. => none
    | .rdRfr .. => none
    | .rdEsr .. => none
    | .rdIer .. => none
    | .rdFbank .. => none

/-- R31: the stored frames of a FIFO, oldest first: the queue the ring stands for. -/
def fifoList (x : Fifo) : List Slot := (List.range x.fmp.toNat).map fun n => x.slot[slotAt x.head n]

/-- R137: the key of the filter entry at bank `b`, position `j`: (scale, mode, bank, position) compared left to
right, as one number; 32-bit before 16-bit, list before mask. -/
def hitKey (x : Filters) (b : BankIdx) (j : Nat) : Nat :=
  (((if x.fsc.getLsbD b.val then 0 else 1) * 2 + (if x.fbm.getLsbD b.val then 0 else 1)) * 14 + b.val) * 4 + j

/-- R137: the entry at bank `b`, position `j` is an accepting entry of an active bank. -/
def Accepts (x : Filters) (fr : Frame) (b : BankIdx) (j : Nat) : Prop :=
  x.act.getLsbD b.val = true ∧ ∃ e ∈ entries x b, e.j = j ∧ hits e.test fr = true

/-- R135: how many filters a bank holds, by its scale and mode. -/
def filtersHeld (x : Filters) (b : BankIdx) : Nat :=
  match x.fsc.getLsbD b.val, x.fbm.getLsbD b.val with
  | true, false => 1
  | true, true => 2
  | false, false => 2
  | false, true => 4

/-- R62, R92: byte `i` of a payload carried by the data words `lo` and `hi`. -/
def laneOf (lo hi : Word) (i : Fin 8) : Byte :=
  if i.val < 4 then fieldOf lo (8 * i.val) 8 else fieldOf hi (8 * (i.val - 4)) 8

/-- R99: `r0`, `r1` hand out kind `k`: the kind, `ev` and `kv`, `call` exactly when the handle is not null, every
other bit 0, and the handle (0 when it is null). -/
def HandsOut (s : State) (k : KindIdx) (r0 r1 : Word) : Prop :=
  (fieldOf r0 0 5).toNat = k.val ∧ fieldOf r0 5 3 = 0 ∧ bitOf r0 8 = true ∧ bitOf r0 9 = true ∧
    (bitOf r0 10 = true ↔ s.ntf.cb[k] ≠ 0) ∧ fieldOf r0 11 21 = 0 ∧ r1 = s.ntf.cb[k]

/-- R67: the ten operations that change no state. -/
def isQuery : Op → Bool
  | .freeCount | .mboxPending | .fifoCount | .rdCfg | .rdMsr | .rdTsr | .rdRfr | .rdEsr | .rdIer | .rdFbank => true
  | .init | .start | .finitEnter | .finitExit | .cfgFilter | .transmit | .receive | .notifyEn | .notifyDis
  | .vecTx | .vecRx0 | .vecRx1Sce | .vecDone => false

/-- R268: the entry operation of a vector. -/
def entryOf (v : VecIdx) : Instr := if v = 0 then .vecTx 0 else if v = 1 then .vecRx0 0 else .vecRx1Sce 0

/-- R239: the event kind and the clear action vector 1 selects, by the order of R237. -/
def selectRx (s : State) (f : FifoIdx) : Option (KindIdx × ClearAct) :=
  if s.ntf.en.getLsbD (9 + 3 * f.val) = true ∧ s.fifo[f].fmp ≠ 0 then some (fifoKind f 0, .none)
  else if s.ntf.en.getLsbD (10 + 3 * f.val) = true ∧ s.fifo[f].full = true then some (fifoKind f 1, .clrFull f)
  else if s.ntf.en.getLsbD (11 + 3 * f.val) = true ∧ s.fifo[f].fovr = true then some (fifoKind f 2, .clrFovr f)
  else none

/-- R238: the error kind and the clear action the status chain selects. -/
def selectErr (s : State) : Option (KindIdx × ClearAct) :=
  if s.ntf.errie = false then none
  else if s.ntf.en.getLsbD 15 = true ∧ s.err.ewg = true then some (15, .clrEwg)
  else if s.ntf.en.getLsbD 16 = true ∧ s.err.epv = true then some (16, .clrEpv)
  else if s.ntf.en.getLsbD 17 = true ∧ s.err.bof = true then some (17, .clrBof)
  else if s.ntf.en.getLsbD 18 = true ∧ s.err.merr = true then some (18, .clrMerr)
  else none

end Sys2Proof.Machine
end

