-- ==== Sys2Proof/Certificates/Slice0/Obligations.lean ====
section
/-! DEFINITION. The statements about the CAN controller state machine. Each says which rule of spec/ it
formalises; the texts and bases stand in OBLIGATIONS.json.

The schedule `sched`, the word list `port` and the lists `answers`, `collab` and `busTx` are the model's own form of the
spec's atomic interleaved steps and ports (log entries 1, 2 and 4): where a statement names them, or `HostMoves`,
`AgentMoves`, `step` or a run, that form is the model's choice. -/

open Sys2Proof Sys2Proof.Machine

/-! Encoding (30_encoding.md). -/

/-- R80 to R90, R102: decoding an operation's words gives it back, with every field and operand at every value the
encoding admits, reserved bits and reserved values too, and leaves the words after it. -/
def Obligations.DecodeReadsBackEveryEncoding : Prop :=
  ∀ (i : Instr) (rest : List Word), decode (encode i ++ rest) = .ok i rest

/-- R80, R102: the words a decoded operation was read from are its encoding. -/
def Obligations.EncodeWritesBackEveryDecoding : Prop :=
  ∀ (ws rest : List Word) (i : Instr), decode ws = .ok i rest → encode i ++ rest = ws

/-- R81 to R90: words written out from the tables of the spec decode to the operations they stand for. -/
def Obligations.CommandWordsOfTheTable : Prop :=
  decode [0x010007FB] = .ok (.init true true 6 true true true true true true 0) [] ∧
  decode [0x0100010D] = .ok (.init true false 3 false false false true false false 0) [] ∧
  decode [0x05000051, 0x41250123, 0x81260124] = .ok (.cfgFilter 1 true false true 0 0x41250123 0x81260124) [] ∧
  decode [0x0600004A, 0x123, 0, 0] = .ok (.transmit false true 2 true 0 0x123 0 0) [] ∧
  decode [0x07000001] = .ok (.receive 1 0) [] ∧
  decode [0x09000003] = .ok (.mboxPending 3 0) [] ∧
  decode [0x0B000009, 0x08002000] = .ok (.notifyEn 9 0 0x08002000) [] ∧
  decode [0x13000002] = .ok (.vecDone 2 0) [] ∧
  decode [0x2600000E] = .ok (.rdFbank 14 0) []

/-- R101, R102: exactly the opcodes 0x00, 0x0D to 0x0F, 0x14 to 0x1F and 0x27 to 0xFF are unknown; the idle port
consumes such a command word alone and answers ERR_OPCODE, changing nothing else. -/
def Obligations.UnknownOpcodesConsumeOneWord : Prop :=
  (∀ (cw : Word) (ws : List Word), decode (cw :: ws) = .unknownOpcode ws ↔
    (cw.toNat / 2 ^ 24 = 0 ∨ (0x0D ≤ cw.toNat / 2 ^ 24 ∧ cw.toNat / 2 ^ 24 ≤ 0x0F) ∨
      (0x14 ≤ cw.toNat / 2 ^ 24 ∧ cw.toNat / 2 ^ 24 ≤ 0x1F) ∨ 0x27 ≤ cw.toNat / 2 ^ 24)) ∧
  ∀ (cw : Word) (ws : List Word) (s u : State), HostMoves s u → u.hpt.hp = .idle → u.port = cw :: ws →
    decode (cw :: ws) = .unknownOpcode ws →
    step s = .next { u with port := ws, answers := u.answers ++ [⟨.errOpcode, []⟩] }

/-- R91: which bits `IdSplit` takes, which word `IdJoin` makes, and that `IdJoin` of `IdSplit` is the identifier for
every identifier in range; a standard identifier leaves `exid` 0. -/
def Obligations.IdentifierSplitAndJoin : Prop :=
  (∀ w : Word, idSplit false w = (fieldOf w 0 11, 0) ∧ idSplit true w = (fieldOf w 18 11, fieldOf w 0 18)) ∧
  (∀ (stid : BitVec 11) (exid : BitVec 18),
    idJoin false stid exid = stid.setWidth 32 ∧ idJoin true stid exid = (stid ++ exid).setWidth 32) ∧
  ∀ (ide : Bool) (w : Word), idInRange ide w = true → idJoin ide (idSplit ide w).1 (idSplit ide w).2 = w

/-- R61, R65: with the host port idle and the host's turn, a step at a whole transaction is the meaning of the
operation it decodes to, at the state from which its words and its turn are taken. -/
def Obligations.StepRunsTheDecodedOperation : Prop :=
  ∀ (s u : State) (i : Instr) (rest : List Word), HostMoves s u → u.hpt.hp = .idle → decode u.port = .ok i rest →
    step s = exec i { u with port := rest }

/-! Refusals (60_exceptions.md R260, R261). -/

/-- R97, R260, R261: every operation is refused with exactly the status of the table in `refusalOf`, leaving the
whole state as it was but for the answer; and an operation that is not refused answers OK with exactly its row's
number of result words, but for INIT, which gives no answer in its first phase. -/
def Obligations.RefusalsFollowTheTable : Prop :=
  ∀ (i : Instr) (s : State),
    match refusalOf i s with
    | some st => st ≠ .ok ∧ exec i s = .next { s with answers := s.answers ++ [⟨st, []⟩] }
    | none =>
      ∃ t, exec i s = .next t ∧ (i.op = .init → t.answers = s.answers) ∧
        (i.op ≠ .init → ∃ ws : List Word, ws.length = i.op.row.nOut ∧ t.answers = s.answers ++ [⟨.ok, ws⟩])

/-- From every state every number of steps gives a state: no step ever stops the machine. This is the model's deduction
(log entry 18) from R260, by which a refusal is an answer, and R304, by which a hang raises nothing. -/
def Obligations.MachineNeverStops : Prop :=
  ∀ (k : Nat) (s : State), RunsFor k s

/-! Mode control (40_mode_control.md). -/

/-- R110 phase P1: a well-formed INIT withdraws the sleep request, latches its operands, emits the four requests
in order and suspends the host port at the first wait; nothing else changes. -/
def Obligations.InitPhaseOneLatchesAndSuspends : Prop :=
  ∀ (lbkm silm : Bool) (baud : BitVec 3) (ttcm abom awum art rflm txfp : Bool) (s : State), baud ≠ 7 →
    ∃ x : HostPort,
      exec (.init lbkm silm baud ttcm abom awum art rflm txfp 0) s =
        .next { s with
          mc := { s.mc with sleepRq := false }
          hpt := x
          collab := s.collab ++ [.portClkEn, .ctrlClkEn, .remap, .pinDirs] } ∧
      x.hp = .initWaitSleep ∧ x.hpBaud = baud ∧
      x.hpMode.getLsbD 0 = lbkm ∧ x.hpMode.getLsbD 1 = silm ∧
      x.hpPol.getLsbD 0 = ttcm ∧ x.hpPol.getLsbD 1 = abom ∧ x.hpPol.getLsbD 2 = awum ∧
      x.hpPol.getLsbD 3 = art ∧ x.hpPol.getLsbD 4 = rflm ∧ x.hpPol.getLsbD 5 = txfp

/-- R110, R113: what the host's turn does to a suspended INIT: at the first wait nothing while `slak` is 1, else
phase P2; at the second nothing while `inak` is 0, else phase P3, which writes the eleven configuration fields from
the latched operands and the table entry minus one, and answers OK. -/
def Obligations.SuspendedInitWaitsOrGoesOn : Prop :=
  ∀ (s u : State), HostMoves s u →
    (u.hpt.hp = .initWaitSleep → u.mc.slak = true → step s = .next u) ∧
    (u.hpt.hp = .initWaitSleep → u.mc.slak = false →
      step s = .next { u with mc := { u.mc with initRq := true }, hpt := { u.hpt with hp := .initWaitInit } }) ∧
    (u.hpt.hp = .initWaitInit → u.mc.inak = false → step s = .next u) ∧
    (∀ h : u.hpt.hpBaud.toNat < 7, u.hpt.hp = .initWaitInit → u.mc.inak = true →
      ∃ c : Cfg,
        step s = .next { u with
          cfg := c, hpt := { u.hpt with hp := .idle }, answers := u.answers ++ [⟨.ok, []⟩] } ∧
        c.lbkm = u.hpt.hpMode.getLsbD 0 ∧ c.silm = u.hpt.hpMode.getLsbD 1 ∧
        c.ttcm = u.hpt.hpPol.getLsbD 0 ∧ c.abom = u.hpt.hpPol.getLsbD 1 ∧ c.awum = u.hpt.hpPol.getLsbD 2 ∧
        c.art = u.hpt.hpPol.getLsbD 3 ∧ c.rflm = u.hpt.hpPol.getLsbD 4 ∧ c.txfp = u.hpt.hpPol.getLsbD 5 ∧
        c.ts1.toNat = (Config.baudTable ⟨u.hpt.hpBaud.toNat, h⟩).ts1 - 1 ∧
        c.ts2.toNat = (Config.baudTable ⟨u.hpt.hpBaud.toNat, h⟩).ts2 - 1 ∧
        c.brp.toNat = (Config.baudTable ⟨u.hpt.hpBaud.toNat, h⟩).brp - 1)

/-- R110: a whole INIT presented to an idle port, with AckWake and AckInit taken at its two waits, ends after five
turns in INIT mode with every configuration field as its operands and the table say, one answer OK and the four
requests emitted; mailboxes, FIFOs, filters, notifications and errors are as they were. -/
def Obligations.InitCompletesWithItsAcknowledgments : Prop :=
  ∀ (lbkm silm : Bool) (baud : BitVec 3) (ttcm abom awum art rflm txfp : Bool) (h : baud.toNat < 7)
    (s : State) (r : List Turn) (ws : List Word), s.hpt.hp = .idle →
    ∃ (c : Cfg) (x : HostPort),
      Host.Core.run Sys2Proof.core 5 { s with
        sched := .host :: .agent .ackWake :: .host :: .agent .ackInit :: .host :: r
        port := encode (.init lbkm silm baud ttcm abom awum art rflm txfp 0) ++ ws } =
      .next { s with
        mc := ⟨false, false, true, true⟩
        hpt := x
        cfg := c
        sched := r
        port := ws
        answers := s.answers ++ [⟨.ok, []⟩]
        collab := s.collab ++ [.portClkEn, .ctrlClkEn, .remap, .pinDirs] } ∧
      x.hp = .idle ∧ c.lbkm = lbkm ∧ c.silm = silm ∧ c.ttcm = ttcm ∧ c.abom = abom ∧ c.awum = awum ∧ c.art = art ∧
      c.rflm = rflm ∧ c.txfp = txfp ∧
      c.ts1.toNat = (Config.baudTable ⟨baud.toNat, h⟩).ts1 - 1 ∧
      c.ts2.toNat = (Config.baudTable ⟨baud.toNat, h⟩).ts2 - 1 ∧
      c.brp.toNat = (Config.baudTable ⟨baud.toNat, h⟩).brp - 1

/-- R116, R304: if the awaited acknowledgment is never taken (and no reset comes), INIT never returns: however long
the run, the port stays suspended, gives no answer and takes no word. -/
def Obligations.InitHangsWithoutItsAcknowledgment : Prop :=
  ∀ (k : Nat) (s : State),
    ((s.hpt.hp = .initWaitSleep ∧ s.mc.slak = true ∧ ∀ t ∈ s.sched, t ≠ .agent .ackWake ∧ ∀ d, t ≠ .reset d) ∨
      (s.hpt.hp = .initWaitInit ∧ s.mc.inak = false ∧ ∀ t ∈ s.sched, t ≠ .agent .ackInit ∧ ∀ d, t ≠ .reset d)) →
    ∃ t, Host.Core.run Sys2Proof.core k s = .next t ∧ t.hpt = s.hpt ∧ t.answers = s.answers ∧ t.port = s.port

/-- R304, R112: under MODE_ACK_FAIR both waits of INIT end: on every admissible infinite schedule without a reset in
which the host port's turn keeps coming, a suspended INIT returns, answering OK once, in INIT mode. That a phase of INIT
takes a host turn, and so the premise that host turns keep coming, is the model's choice (log entry 12). The invariant
rules out states no run reaches. -/
def Obligations.InitReturnsUnderFairAcknowledgments : Prop :=
  ∀ (sch : Schedule) (s : State), Inv s → s.par.modeAckFair = true → Admissible sch s →
    (∀ k d, sch k ≠ .reset d) → (∀ n, ∃ k, n ≤ k ∧ sch k = .host) → s.hpt.hp ≠ .idle →
    ∃ k, (stateAt sch s k).hpt.hp = .idle ∧ (stateAt sch s k).answers = s.answers ++ [⟨.ok, []⟩] ∧
      mode (stateAt sch s k) = .init

/-- R111: START withdraws the initialization request, answers OK and changes nothing else; with a reserved bit it is
refused. -/
def Obligations.StartWithdrawsTheRequest : Prop :=
  ∀ s : State,
    exec (.start 0) s =
      .next { s with mc := { s.mc with initRq := false }, answers := s.answers ++ [⟨.ok, []⟩] } ∧
    ∀ rsvd : BitVec 24, rsvd ≠ 0 → exec (.start rsvd) s = .next { s with answers := s.answers ++ [⟨.errRange, []⟩] }

/-- R112: the three steps of ModeEngine: when each is enabled and the one bit it changes; otherwise nothing. -/
def Obligations.ModeEngineAcknowledges : Prop :=
  ∀ s u : State,
    (AgentMoves .ackWake s u →
      step s = .next (if u.mc.sleepRq = false ∧ u.mc.slak = true then
        { u with mc := { u.mc with slak := false } } else u)) ∧
    (AgentMoves .ackInit s u →
      step s = .next (if u.mc.initRq = true ∧ u.mc.inak = false ∧ u.mc.slak = false then
        { u with mc := { u.mc with inak := true } } else u)) ∧
    (AgentMoves .ackRun s u →
      step s = .next (if u.mc.initRq = false ∧ u.mc.inak = true then
        { u with mc := { u.mc with inak := false } } else u))

/-- R117, R42 (f): a step that is no reset changes a configuration field only in INIT mode, at the last phase of an
INIT. The invariant rules out states no run reaches. -/
def Obligations.ConfigurationChangesOnlyInInitMode : Prop :=
  ∀ s t : State, Inv s → (∀ d r, s.sched ≠ .reset d :: r) → step s = .next t → t.cfg ≠ s.cfg →
    mode s = .init ∧ s.hpt.hp = .initWaitInit

/-- R112, R42 (c): once sleep is left it is not entered again, short of a reset. -/
def Obligations.SleepIsLeftOnce : Prop :=
  ∀ s t : State, (∀ d r, s.sched ≠ .reset d :: r) → step s = .next t → s.mc.slak = false → t.mc.slak = false

/-! Filters (41_filter.md). -/

/-- R130, R131: FINIT_ENTER sets the filter-init bit, FINIT_EXIT clears it, both answer OK and nothing else changes;
with a reserved bit they are refused. -/
def Obligations.FilterInitBitSetAndCleared : Prop :=
  ∀ s : State,
    exec (.finitEnter 0) s = .next { s with flt := { s.flt with finit := true }, answers := s.answers ++ [⟨.ok, []⟩] } ∧
    exec (.finitExit 0) s = .next { s with flt := { s.flt with finit := false }, answers := s.answers ++ [⟨.ok, []⟩] } ∧
    ∀ rsvd : BitVec 24, rsvd ≠ 0 →
      exec (.finitEnter rsvd) s = .next { s with answers := s.answers ++ [⟨.errRange, []⟩] } ∧
      exec (.finitExit rsvd) s = .next { s with answers := s.answers ++ [⟨.errRange, []⟩] }

/-- R133, R93: CFG_FILTER in the filter configuration state activates exactly the bank it names with the mode,
scale, FIFO and registers given, in the packing of the scale; every other bank and the rest of the state is as it
was. -/
def Obligations.ConfigureFilterProgramsOneBank : Prop :=
  ∀ (bank : BitVec 4) (h : bank.toNat < 14) (fbm fsc ffa : Bool) (w0 w1 : Word) (s : State),
    s.flt.finit = true →
    ∃ x : Filters,
      exec (.cfgFilter bank fbm fsc ffa 0 w0 w1) s =
        .next { s with flt := x, answers := s.answers ++ [⟨.ok, []⟩] } ∧
      x.finit = true ∧
      (∀ b : BankIdx,
        x.act.getLsbD b.val = (if b.val = bank.toNat then true else s.flt.act.getLsbD b.val) ∧
        x.fbm.getLsbD b.val = (if b.val = bank.toNat then fbm else s.flt.fbm.getLsbD b.val) ∧
        x.fsc.getLsbD b.val = (if b.val = bank.toNat then fsc else s.flt.fsc.getLsbD b.val) ∧
        x.ffa.getLsbD b.val = (if b.val = bank.toNat then ffa else s.flt.ffa.getLsbD b.val) ∧
        (b.val ≠ bank.toNat → x.fr1[b] = s.flt.fr1[b] ∧ x.fr2[b] = s.flt.fr2[b])) ∧
      (fsc = true → x.fr1[bank.toNat] = w0 ∧ x.fr2[bank.toNat] = w1) ∧
      (fsc = false →
        fieldOf x.fr1[bank.toNat] 0 16 = fieldOf w0 0 16 ∧ fieldOf x.fr1[bank.toNat] 16 16 = fieldOf w1 0 16 ∧
        fieldOf x.fr2[bank.toNat] 0 16 = fieldOf w0 16 16 ∧ fieldOf x.fr2[bank.toNat] 16 16 = fieldOf w1 16 16)

/-- R133 (a), R42 (e): a step that makes a bank active is a CFG_FILTER of that bank, which wrote both its
registers. -/
def Obligations.BankActivatedOnlyByItsConfiguration : Prop :=
  ∀ (s t : State) (b : BankIdx), step s = .next t → s.flt.act.getLsbD b.val = false → t.flt.act.getLsbD b.val = true →
    ∃ (u : State) (bank : BitVec 4) (fbm fsc ffa : Bool) (w0 w1 : Word) (rest : List Word),
      HostMoves s u ∧ decode u.port = .ok (.cfgFilter bank fbm fsc ffa 0 w0 w1) rest ∧ bank.toNat = b.val ∧
      t.flt.fr1[b] = (filterPack fsc w0 w1).1 ∧ t.flt.fr2[b] = (filterPack fsc w0 w1).2

/-- R94: where every field of a frame sits in its image, and that bit 29 is 0. R136: a mask entry accepts a frame exactly
when every bit its mask compares agrees with the image, a list entry exactly when all bits agree; a 16-bit entry sees
the high half of the image. -/
def Obligations.EntriesCompareTheMaskedBits : Prop :=
  ∀ fr : Frame,
    (bitOf (image32 fr) 31 = fr.ide ∧ bitOf (image32 fr) 30 = fr.rtr ∧ bitOf (image32 fr) 29 = false ∧
      fieldOf (image32 fr) 27 2 = fr.exid.extractLsb' 16 2 ∧ fieldOf (image32 fr) 16 11 = fr.stid ∧
      fieldOf (image32 fr) 0 16 = fr.exid.extractLsb' 0 16 ∧ image16 fr = fieldOf (image32 fr) 16 16) ∧
    (∀ id mask : Word, hits (.mask32 id mask) fr = true ↔
      ∀ i, i < 32 → mask.getLsbD i = true → (image32 fr).getLsbD i = id.getLsbD i) ∧
    (∀ id : Word, hits (.list32 id) fr = true ↔ ∀ i, i < 32 → (image32 fr).getLsbD i = id.getLsbD i) ∧
    (∀ id mask : BitVec 16, hits (.mask16 id mask) fr = true ↔
      ∀ i, i < 16 → mask.getLsbD i = true → (image32 fr).getLsbD (16 + i) = id.getLsbD i) ∧
    (∀ id : BitVec 16, hits (.list16 id) fr = true ↔ ∀ i, i < 16 → (image32 fr).getLsbD (16 + i) = id.getLsbD i)

/-- R137, R140: a frame is discarded by the matcher exactly when no entry of an active bank accepts it. -/
def Obligations.UnmatchedFramesHaveNoAcceptingEntry : Prop :=
  ∀ (x : Filters) (fr : Frame), matchFrame x fr = none ↔ ∀ b j, ¬ Accepts x fr b j

/-- R137, R138: the accepting entry with the least key decides: its bank's FIFO, and as index the filters of the
lower banks of that FIFO plus its position, at most 55. -/
def Obligations.LeastKeyDecidesFifoAndIndex : Prop :=
  ∀ (x : Filters) (fr : Frame) (f : FifoIdx) (n : BitVec 8), matchFrame x fr = some (f, n) →
    ∃ (b : BankIdx) (j : Nat), Accepts x fr b j ∧ (∀ b' j', Accepts x fr b' j' → hitKey x b j ≤ hitKey x b' j') ∧
      (f = 1 ↔ x.ffa.getLsbD b.val = true) ∧
      n.toNat = (∑ b' : BankIdx,
        if b'.val < b.val ∧ x.ffa.getLsbD b'.val = x.ffa.getLsbD b.val then filtersHeld x b' else 0) + j ∧
      n.toNat ≤ 55

/-- R141: with bank 0 the only active bank and configured as the source's filter, exactly the frames whose
identifier part `stid` is 0x123 are accepted, into FIFO 0 with index 0. -/
def Obligations.SourceFilterAcceptsItsIdentifier : Prop :=
  ∀ (x : Filters) (fr : Frame), x.act = 1 → x.fbm.getLsbD 0 = false → x.fsc.getLsbD 0 = true →
    x.ffa.getLsbD 0 = false → x.fr1[0] = 0x01230000 → x.fr2[0] = 0x07FF0000 →
    matchFrame x fr = if fr.stid = 0x123 then some (0, 0) else none

/-- R139: while the filters are in their configuration state no agent step puts a frame into a FIFO. -/
def Obligations.NothingReceivedWhileFiltersAreConfigured : Prop :=
  ∀ (s u t : State) (a : AgentStep), AgentMoves a s u → s.flt.finit = true → step s = .next t → t.fifo = s.fifo

/-! Transmission (42_transmit.md). -/

/-- R161, R162: TRANSMIT with an empty mailbox loads the least empty one, with the identifier, flags and all eight
payload lanes as given, wipes its old result, appends the request, answers the index, and changes nothing else. -/
def Obligations.TransmitLoadsTheLeastEmptyMailbox : Prop :=
  ∀ (ide rtr : Bool) (dlc : BitVec 4) (tgt : Bool) (w0 w1 w2 : Word) (s : State) (m : MbIdx),
    dlc.toNat ≤ 8 → idInRange ide w0 = true → s.mf[m].tme = true → (∀ m' : MbIdx, m' < m → s.mf[m'].tme = false) →
    ∃ x : Mailbox,
      exec (.transmit ide rtr dlc tgt 0 w0 w1 w2) s =
        .next { s with
          mb := s.mb.set m.val x
          mf := s.mf.set m.val ⟨false, false, false, false, false, false⟩
          txq := s.txq ++ [m]
          answers := s.answers ++ [⟨.ok, [BitVec.ofNat 32 m.val]⟩] } ∧
      x.ide = ide ∧ x.rtr = rtr ∧ x.dlc = dlc ∧ x.tgt = tgt ∧
      x.stid = (if ide then fieldOf w0 18 11 else fieldOf w0 0 11) ∧
      x.exid = (if ide then fieldOf w0 0 18 else 0) ∧
      ∀ i : Fin 8, x.data[i] = laneOf w1 w2 i

/-- R42 (g), R165: no host operation writes the content of a pending mailbox or empties it. -/
def Obligations.PendingMailboxesAreUntouchedByTheHost : Prop :=
  ∀ (i : Instr) (s t : State) (m : MbIdx), s.mf[m].tme = false → exec i s = .next t →
    t.mb[m] = s.mb[m] ∧ t.mf[m].tme = false

/-- R160, R163: with no mailbox empty the code is the last of the default priority order: the latest request with
`txfp` 0, the greatest arbitration key (the higher index among equals) with `txfp` 1. -/
def Obligations.CodePointsAtTheLowestPriority : Prop :=
  ∀ s : State, (∀ m : MbIdx, s.mf[m].tme = false) → s.txq ≠ [] → s.par.txPriority = .prioOrder →
    (s.cfg.txfp = false → s.txq.getLast? = some (code s)) ∧
    (s.cfg.txfp = true → code s ∈ s.txq ∧
      ∀ m ∈ s.txq, (arbKey s.mb[m]).toNat < (arbKey s.mb[code s]).toNat ∨
        ((arbKey s.mb[m]).toNat = (arbKey s.mb[code s]).toNat ∧ m ≤ code s))

/-- R163: `ArbKey` orders frames as they win arbitration: the lower 11-bit part first; at the same part a standard
data frame, then a standard remote frame, then extended frames by their low part, data before remote. -/
def Obligations.ArbitrationKeyOrdersFrames : Prop :=
  ∀ x y : Mailbox,
    (x.stid.toNat < y.stid.toNat → (arbKey x).toNat < (arbKey y).toNat) ∧
    (x.stid = y.stid → x.ide = false → y.ide = false → x.exid = 0 → y.exid = 0 → x.rtr = false → y.rtr = true →
      (arbKey x).toNat < (arbKey y).toNat) ∧
    (x.stid = y.stid → x.ide = false → y.ide = true → x.exid = 0 → (arbKey x).toNat < (arbKey y).toNat) ∧
    (x.stid = y.stid → x.ide = true → y.ide = true → x.exid.toNat < y.exid.toNat →
      (arbKey x).toNat < (arbKey y).toNat) ∧
    (x.stid = y.stid → x.ide = true → y.ide = true → x.exid = y.exid → x.rtr = false → y.rtr = true →
      (arbKey x).toNat < (arbKey y).toNat)

/-- R166, R167: a completion of a pending mailbox in normal mode empties it, takes it from the request queue, sets
its request-complete flag and the one outcome flag drawn; with an outcome other than success nothing else
changes. -/
def Obligations.CompletionEndsTheRequest : Prop :=
  ∀ (m : MbIdx) (o : TxOutcome) (ts : BitVec 16) (pad : Payload) (s u : State),
    AgentMoves (.txComplete m o ts pad) s u → u.mc.slak = false → u.mc.inak = false → u.mf[m].tme = false →
    (u.par.txOrderStrict = true → (txPriority u).head? = some m) →
    (u.par.artRestricts = true → u.cfg.art = true → o = .ok ∨ o = .abort) →
    ∃ t, step s = .next t ∧
      t.mf = u.mf.set m.val
        { tme := true
          rqcp := true
          txok := u.mf[m].txok || o == .ok
          alst := u.mf[m].alst || o == .arbLost
          terr := u.mf[m].terr || o == .txError
          abrt := u.mf[m].abrt || o == .abort } ∧
      t.txq = u.txq.filter (fun x => x != m) ∧
      (o ≠ .ok → t = { u with mf := t.mf, txq := t.txq })

/-- R166, R167: a completion is not enabled, and its turn changes nothing, outside normal mode, for an empty
mailbox, out of order under TX_ORDER_STRICT, or with a failure under ART_RESTRICTS with `art` 1. -/
def Obligations.CompletionNotEnabledChangesNothing : Prop :=
  ∀ (m : MbIdx) (o : TxOutcome) (ts : BitVec 16) (pad : Payload) (s u : State),
    AgentMoves (.txComplete m o ts pad) s u →
    (u.mc.slak = true ∨ u.mc.inak = true ∨ u.mf[m].tme = true ∨
      (u.par.txOrderStrict = true ∧ (txPriority u).head? ≠ some m) ∨
      (u.par.artRestricts = true ∧ u.cfg.art = true ∧ (o = .arbLost ∨ o = .txError))) →
    step s = .next u

/-- R168, R170: what a success sends: unless silent one frame on `bus_tx` with the mailbox's fields, its bytes below
`dlc` as loaded (of a data frame, and not the time-stamp bytes 6 and 7 of a stamped 8-byte frame in time-triggered
mode) and every other byte as drawn; with `lbkm` 0 no FIFO changes, with `lbkm` 1 the frame is delivered to the
matcher. -/
def Obligations.SuccessSendsTheMailboxFrame : Prop :=
  ∀ (m : MbIdx) (ts : BitVec 16) (pad : Payload) (s u : State),
    AgentMoves (.txComplete m .ok ts pad) s u → u.mc.slak = false → u.mc.inak = false → u.mf[m].tme = false →
    (u.par.txOrderStrict = true → (txPriority u).head? = some m) →
    ∃ (t : State) (fr : Frame), step s = .next t ∧
      fr.ide = u.mb[m].ide ∧ fr.rtr = u.mb[m].rtr ∧ fr.stid = u.mb[m].stid ∧ fr.exid = u.mb[m].exid ∧
      fr.dlc = u.mb[m].dlc ∧
      (∀ i : Fin 8, fr.data[i] =
        if i.val < u.mb[m].dlc.toNat ∧ u.mb[m].rtr = false ∧
          ¬ (u.mb[m].tgt = true ∧ u.cfg.ttcm = true ∧ u.mb[m].dlc = 8 ∧ (i = 6 ∨ i = 7)) then u.mb[m].data[i]
        else pad[i]) ∧
      t.busTx = (if u.cfg.silm then u.busTx else u.busTx ++ [⟨fr, u.mb[m].tgt⟩]) ∧
      t.fifo = (if u.cfg.lbkm then (deliver fr ts u).fifo else u.fifo) ∧
      t = { u with mf := t.mf, txq := t.txq, busTx := t.busTx, fifo := t.fifo }

/-- The source's round trip (95_test_vectors.md V4), for every identifier and payload: in normal mode with loopback,
an 8-byte data frame that TRANSMIT accepts, that completes with success and that a filter accepts into an empty
FIFO, is read by RECEIVE with the identifier word and the two payload words exactly as transmitted. -/
def Obligations.LoopbackRoundTrip : Prop :=
  ∀ (ide : Bool) (w0 w1 w2 : Word) (s t u : State) (m : MbIdx) (f : FifoIdx) (fifo : BitVec 1) (n : BitVec 8)
    (ts : BitVec 16) (pad : Payload),
    idInRange ide w0 = true → s.mc.slak = false → s.mc.inak = false → s.cfg.lbkm = true → s.flt.finit = false →
    s.par.txOrderStrict = false → fifo.toNat = f.val → s.fifo[f].fmp = 0 →
    matchFrame s.flt ⟨ide, false, (idSplit ide w0).1, (idSplit ide w0).2, 8, dataUnpack w1 w2⟩ = some (f, n) →
    exec (.transmit ide false 8 false 0 w0 w1 w2) s = .next t →
    t.answers = s.answers ++ [⟨.ok, [BitVec.ofNat 32 m.val]⟩] →
    agentTurn (.txComplete m .ok ts pad) t = u →
    ∃ (v : State) (r1 : Word), exec (.receive fifo 0) u = .next v ∧
      v.answers = u.answers ++ [⟨.ok, [w0, r1, w1, w2]⟩] ∧
      bitOf r1 0 = ide ∧ bitOf r1 1 = false ∧ fieldOf r1 2 4 = 8 ∧ fieldOf r1 6 2 = 0 ∧ fieldOf r1 8 8 = n ∧
      fieldOf r1 16 16 = ts ∧ v.fifo[f].fmp = 0

/-! Reception (43_receive.md). -/

/-- R191, R192, R98: RECEIVE of a FIFO that holds a frame answers the window's identifier, its fields, and its
payload with every byte at and above `dlc` 0; it advances the head and lowers the count, and changes nothing else:
`full` and `fovr` stay. -/
def Obligations.ReceiveReadsTheWindowAndReleases : Prop :=
  ∀ (fifo : BitVec 1) (f : FifoIdx) (s : State), fifo.toNat = f.val → s.fifo[f].fmp ≠ 0 →
    ∃ (x : Fifo) (r0 r1 lo hi : Word),
      exec (.receive fifo 0) s =
        .next { s with fifo := s.fifo.set f.val x, answers := s.answers ++ [⟨.ok, [r0, r1, lo, hi]⟩] } ∧
      x.fmp.toNat + 1 = s.fifo[f].fmp.toNat ∧ x.head.val = (s.fifo[f].head.val + 1) % 3 ∧
      x.full = s.fifo[f].full ∧ x.fovr = s.fifo[f].fovr ∧ x.slot = s.fifo[f].slot ∧
      (s.fifo[f].slot[s.fifo[f].head].frame.ide = false →
        (fieldOf r0 0 11 = s.fifo[f].slot[s.fifo[f].head].frame.stid ∧ fieldOf r0 11 21 = 0)) ∧
      (s.fifo[f].slot[s.fifo[f].head].frame.ide = true →
        (fieldOf r0 18 11 = s.fifo[f].slot[s.fifo[f].head].frame.stid ∧
          fieldOf r0 0 18 = s.fifo[f].slot[s.fifo[f].head].frame.exid ∧ fieldOf r0 29 3 = 0)) ∧
      bitOf r1 0 = s.fifo[f].slot[s.fifo[f].head].frame.ide ∧
      bitOf r1 1 = s.fifo[f].slot[s.fifo[f].head].frame.rtr ∧
      fieldOf r1 2 4 = s.fifo[f].slot[s.fifo[f].head].frame.dlc ∧ fieldOf r1 6 2 = 0 ∧
      fieldOf r1 8 8 = s.fifo[f].slot[s.fifo[f].head].fmi ∧ fieldOf r1 16 16 = s.fifo[f].slot[s.fifo[f].head].ts ∧
      ∀ i : Fin 8, laneOf lo hi i =
        if i.val < s.fifo[f].slot[s.fifo[f].head].frame.dlc.toNat then s.fifo[f].slot[s.fifo[f].head].frame.data[i]
        else 0

/-- R31, R190, R191, R194: the ring is a queue of capacity 3: an arrival below 3 is appended and latches `full` at
3; at 3 it sets `fovr` and is discarded by a locked FIFO or replaces the newest of an unlocked one; a release takes
the window, which is the oldest, and touches neither flag. -/
def Obligations.FifoIsAQueueOfThree : Prop :=
  ∀ (rflm : Bool) (x : Fifo) (y : Slot),
    (fifoList x).length = x.fmp.toNat ∧
    fifoList (pushSlot rflm x y) =
      (if x.fmp.toNat < 3 then fifoList x ++ [y] else if rflm then fifoList x else (fifoList x).dropLast ++ [y]) ∧
    (pushSlot rflm x y).full = (x.full || decide (x.fmp.toNat = 2)) ∧
    (pushSlot rflm x y).fovr = (x.fovr || decide (x.fmp.toNat = 3)) ∧
    (x.fmp ≠ 0 → fifoList x = window x :: fifoList (releaseSlot x) ∧ (releaseSlot x).full = x.full ∧
      (releaseSlot x).fovr = x.fovr)

/-- R31, R46, R194: every step of the machine does to the queue a FIFO stands for one of: nothing; append a frame
while fewer than 3 are stored; replace the newest of three; hand out and remove the oldest as the answer of a
RECEIVE; empty it by a reset. -/
def Obligations.EveryStepIsAQueueOperation : Prop :=
  ∀ (s t : State) (f : FifoIdx), step s = .next t →
    fifoList t.fifo[f] = fifoList s.fifo[f] ∨
    (∃ y, (fifoList s.fifo[f]).length < 3 ∧ fifoList t.fifo[f] = fifoList s.fifo[f] ++ [y]) ∨
    (∃ y, (fifoList s.fifo[f]).length = 3 ∧ s.cfg.rflm = false ∧ t.fifo[f].fovr = true ∧
      fifoList t.fifo[f] = (fifoList s.fifo[f]).dropLast ++ [y]) ∨
    (∃ y, fifoList s.fifo[f] = y :: fifoList t.fifo[f] ∧ t.answers = s.answers ++ [⟨.ok, receiveWords y⟩]) ∨
    (∃ d r, s.sched = .reset d :: r ∧ fifoList t.fifo[f] = [])

/-- R193, R139, R190: a frame from the bus in normal mode, in range, with the filters out of their configuration state,
enters the FIFO and takes the index the matcher gives, and is dropped when it gives none. Outside normal mode or out of
range the step is not enabled and its turn changes nothing (95_test_vectors.md 2.5; that the model then has a turn at
all is log entry 10); in the filter configuration state the frame is discarded (R139). -/
def Obligations.BusFrameGoesThroughTheMatcher : Prop :=
  ∀ (ide rtr : Bool) (id : Word) (dlc : BitVec 4) (payload : Payload) (ts : BitVec 16) (s u : State) (fr : Frame),
    AgentMoves (.busRx ide rtr id dlc payload ts) s u →
    fr = ⟨ide, rtr, if ide then fieldOf id 18 11 else fieldOf id 0 11, if ide then fieldOf id 0 18 else 0, dlc,
      payload⟩ →
    ((u.mc.slak = true ∨ u.mc.inak = true ∨ 8 < dlc.toNat ∨ (ide = false ∧ 2 ^ 11 ≤ id.toNat) ∨
      (ide = true ∧ 2 ^ 29 ≤ id.toNat) ∨ u.flt.finit = true) → step s = .next u) ∧
    (u.mc.slak = false → u.mc.inak = false → dlc.toNat ≤ 8 → (ide = false → id.toNat < 2 ^ 11) →
      (ide = true → id.toNat < 2 ^ 29) → u.flt.finit = false →
      step s = .next (match matchFrame u.flt fr with
        | none => u
        | some (f, n) => { u with fifo := u.fifo.set f.val (pushSlot u.cfg.rflm u.fifo[f] ⟨fr, n, ts⟩) }))

/-! Status queries (44_status.md). -/

/-- R210: FREE_COUNT answers the number of empty mailboxes and changes nothing; it is 0 exactly when a well-formed
TRANSMIT finds no mailbox; with a reserved bit it is refused. -/
def Obligations.FreeCountCountsEmptyMailboxes : Prop :=
  ∀ s : State,
    (∃ w : Word, exec (.freeCount 0) s = .next { s with answers := s.answers ++ [⟨.ok, [w]⟩] } ∧
      w.toNat = (Finset.univ.filter fun m : MbIdx => s.mf[m].tme = true).card ∧
      ∀ (ide rtr : Bool) (dlc : BitVec 4) (tgt : Bool) (w0 w1 w2 : Word), dlc.toNat ≤ 8 → idInRange ide w0 = true →
        (w = 0 ↔ exec (.transmit ide rtr dlc tgt 0 w0 w1 w2) s =
          .next { s with answers := s.answers ++ [⟨.failNoMailbox, []⟩] })) ∧
    ∀ rsvd : BitVec 24, rsvd ≠ 0 → exec (.freeCount rsvd) s = .next { s with answers := s.answers ++ [⟨.errRange, []⟩] }

/-- R211, R212: MBOX_PENDING answers the request-complete flag of the mailbox, FIFO_COUNT the pending count of the
FIFO; neither changes anything. -/
def Obligations.MailboxAndFifoQueries : Prop :=
  ∀ s : State,
    (∀ (index : BitVec 2) (h : index.toNat < 3),
      exec (.mboxPending index 0) s =
        .next { s with answers := s.answers ++ [⟨.ok, [if s.mf[index.toNat].rqcp then 1 else 0]⟩] }) ∧
    ∀ (fifo : BitVec 1) (f : FifoIdx), fifo.toNat = f.val →
      ∃ w : Word, exec (.fifoCount fifo 0) s = .next { s with answers := s.answers ++ [⟨.ok, [w]⟩] } ∧
        w.toNat = s.fifo[f].fmp.toNat

/-- R213, R214, R100: RD_CFG answers the two mode bits, the six policies and the three timing fields; RD_MSR the
handshake bits and the filter-init bit; every other bit of the words is 0 and nothing changes. -/
def Obligations.ConfigurationAndModeReadBack : Prop :=
  ∀ s : State,
    (∃ r0 r1 : Word, exec (.rdCfg 0) s = .next { s with answers := s.answers ++ [⟨.ok, [r0, r1]⟩] } ∧
      bitOf r0 0 = s.cfg.lbkm ∧ bitOf r0 1 = s.cfg.silm ∧ fieldOf r0 2 3 = 0 ∧ bitOf r0 5 = s.cfg.ttcm ∧
      bitOf r0 6 = s.cfg.abom ∧ bitOf r0 7 = s.cfg.awum ∧ bitOf r0 8 = s.cfg.art ∧ bitOf r0 9 = s.cfg.rflm ∧
      bitOf r0 10 = s.cfg.txfp ∧ fieldOf r0 11 21 = 0 ∧
      fieldOf r1 0 4 = s.cfg.ts1 ∧ fieldOf r1 4 4 = 0 ∧ fieldOf r1 8 3 = s.cfg.ts2 ∧ fieldOf r1 11 5 = 0 ∧
      fieldOf r1 16 10 = s.cfg.brp ∧ fieldOf r1 26 6 = 0) ∧
    (∃ r0 : Word, exec (.rdMsr 0) s = .next { s with answers := s.answers ++ [⟨.ok, [r0]⟩] } ∧
      bitOf r0 0 = s.mc.initRq ∧ bitOf r0 1 = s.mc.sleepRq ∧ bitOf r0 2 = s.mc.inak ∧ bitOf r0 3 = s.mc.slak ∧
      bitOf r0 4 = s.flt.finit ∧ fieldOf r0 5 27 = 0)

/-- R215, R100: RD_TSR answers the code, the three empty flags and the five completion flags of every mailbox, every
other bit 0, and changes nothing. -/
def Obligations.TransmitStatusReadBack : Prop :=
  ∀ s : State, ∃ r0 : Word, exec (.rdTsr 0) s = .next { s with answers := s.answers ++ [⟨.ok, [r0]⟩] } ∧
    (fieldOf r0 0 2).toNat = (code s).val ∧
    (∀ m : MbIdx,
      bitOf r0 (2 + m.val) = s.mf[m].tme ∧ bitOf r0 (8 + 8 * m.val) = s.mf[m].rqcp ∧
      bitOf r0 (9 + 8 * m.val) = s.mf[m].txok ∧ bitOf r0 (10 + 8 * m.val) = s.mf[m].alst ∧
      bitOf r0 (11 + 8 * m.val) = s.mf[m].terr ∧ bitOf r0 (12 + 8 * m.val) = s.mf[m].abrt ∧
      fieldOf r0 (13 + 8 * m.val) 3 = 0) ∧
    fieldOf r0 5 3 = 0

/-- R216 to R219, R100: RD_RFR, RD_ESR, RD_IER and RD_FBANK answer the FIFO flags, the error status, the enable bits
and a bank's fields and registers, every other bit 0, and change nothing. -/
def Obligations.FifoErrorEnableAndBankReadBack : Prop :=
  ∀ s : State,
    (∀ (fifo : BitVec 1) (f : FifoIdx), fifo.toNat = f.val →
      ∃ r0 : Word, exec (.rdRfr fifo 0) s = .next { s with answers := s.answers ++ [⟨.ok, [r0]⟩] } ∧
        fieldOf r0 0 2 = s.fifo[f].fmp ∧ bitOf r0 2 = s.fifo[f].full ∧ bitOf r0 3 = s.fifo[f].fovr ∧
        fieldOf r0 4 28 = 0) ∧
    (∃ r0 : Word, exec (.rdEsr 0) s = .next { s with answers := s.answers ++ [⟨.ok, [r0]⟩] } ∧
      bitOf r0 0 = s.err.ewg ∧ bitOf r0 1 = s.err.epv ∧ bitOf r0 2 = s.err.bof ∧ bitOf r0 3 = s.err.merr ∧
      fieldOf r0 4 3 = s.err.lec ∧ bitOf r0 7 = false ∧ fieldOf r0 8 3 = s.err.lecSnap ∧ fieldOf r0 11 21 = 0) ∧
    (∃ r0 : Word, exec (.rdIer 0) s = .next { s with answers := s.answers ++ [⟨.ok, [r0]⟩] } ∧
      fieldOf r0 0 19 = s.ntf.en ∧ bitOf r0 19 = s.ntf.errie ∧ fieldOf r0 20 12 = 0) ∧
    ∀ (bank : BitVec 4) (h : bank.toNat < 14),
      ∃ r0 : Word, exec (.rdFbank bank 0) s =
          .next { s with answers := s.answers ++ [⟨.ok, [r0, s.flt.fr1[bank.toNat], s.flt.fr2[bank.toNat]]⟩] } ∧
        bitOf r0 0 = s.flt.act.getLsbD bank.toNat ∧ bitOf r0 1 = s.flt.fbm.getLsbD bank.toNat ∧
        bitOf r0 2 = s.flt.fsc.getLsbD bank.toNat ∧ bitOf r0 3 = s.flt.ffa.getLsbD bank.toNat ∧ fieldOf r0 4 28 = 0

/-- R67: the ten queries change no state, and asked again at once answer the same words. -/
def Obligations.QueriesAreRepeatable : Prop :=
  ∀ (i : Instr) (s : State), isQuery i.op = true → i.WellFormed →
    ∃ ws : List Word,
      exec i s = .next { s with answers := s.answers ++ [⟨.ok, ws⟩] } ∧
      exec i { s with answers := s.answers ++ [⟨.ok, ws⟩] } =
        .next { s with answers := s.answers ++ [⟨.ok, ws⟩] ++ [⟨.ok, ws⟩] }

/-! Notifications (45_notify.md). -/

/-- R230: NOTIFY_EN stores the handle and sets the enable bit of its kind, and the umbrella for the error kinds, in
one step; every other kind and the rest of the state is as it was. With a reserved bit or a kind above 18 it is
refused. -/
def Obligations.NotificationEnabledAtomically : Prop :=
  (∀ (kind : BitVec 5) (rsvd : BitVec 19) (w : Word) (s : State), rsvd ≠ 0 ∨ 18 < kind.toNat →
    exec (.notifyEn kind rsvd w) s = .next { s with answers := s.answers ++ [⟨.errRange, []⟩] }) ∧
  ∀ (kind : BitVec 5) (_ : kind.toNat < 19) (w : Word) (s : State),
    ∃ x : Notify, exec (.notifyEn kind 0 w) s = .next { s with ntf := x, answers := s.answers ++ [⟨.ok, []⟩] } ∧
      x.errie = (s.ntf.errie || decide (15 ≤ kind.toNat)) ∧
      ∀ k : KindIdx,
        x.en.getLsbD k.val = (s.ntf.en.getLsbD k.val || decide (k.val = kind.toNat)) ∧
        x.cb[k] = if k.val = kind.toNat then w else s.ntf.cb[k]

/-- R231: NOTIFY_DIS clears the enable bit of its kind, and the umbrella for the error kinds; every stored handle and
the rest of the state is as it was. -/
def Obligations.NotificationDisabledKeepsItsHandle : Prop :=
  ∀ (kind : BitVec 5) (_ : kind.toNat < 19) (s : State),
    ∃ x : Notify, exec (.notifyDis kind 0) s = .next { s with ntf := x, answers := s.answers ++ [⟨.ok, []⟩] } ∧
      x.errie = (s.ntf.errie && decide (kind.toNat < 15)) ∧ x.cb = s.ntf.cb ∧
      ∀ k : KindIdx, x.en.getLsbD k.val = (s.ntf.en.getLsbD k.val && decide (k.val ≠ kind.toNat))

/-- R233: the transmit-vector entry with a completed mailbox serves the least one, latches the clear of its flags,
reports its outcome flags, and hands out the callback of the kind its outcome matches exactly when that kind is
enabled with a handle; with none completed it answers two zero words and latches no clear; nothing but the latch
changes. -/
def Obligations.TransmitVectorServesTheLeastMailbox : Prop :=
  ∀ s : State, s.vl[0].valid = false →
    (∀ (m : MbIdx) (k : KindIdx), s.mf[m].rqcp = true →
      (∀ m' : MbIdx, m' < m → s.mf[m'].rqcp = false) → FlagsInv s.mf[m] →
      k.val = 3 * m.val + (if s.mf[m].txok then 0 else if s.mf[m].abrt then 1 else 2) →
      ∃ r0 r1 : Word,
        exec (.vecTx 0) s =
          .next { s with vl := s.vl.set 0 ⟨true, .clrRqcp m⟩, answers := s.answers ++ [⟨.ok, [r0, r1]⟩] } ∧
        (fieldOf r0 0 5).toNat = k.val ∧ fieldOf r0 5 3 = 0 ∧ bitOf r0 8 = true ∧ bitOf r0 9 = true ∧
        (bitOf r0 10 = true ↔ s.ntf.en.getLsbD k.val = true ∧ s.ntf.cb[k] ≠ 0) ∧ bitOf r0 11 = false ∧
        (fieldOf r0 12 2).toNat = m.val ∧ fieldOf r0 14 2 = 0 ∧ bitOf r0 16 = s.mf[m].txok ∧
        bitOf r0 17 = s.mf[m].alst ∧ bitOf r0 18 = s.mf[m].terr ∧ bitOf r0 19 = s.mf[m].abrt ∧
        fieldOf r0 20 12 = 0 ∧ r1 = if s.ntf.en.getLsbD k.val then s.ntf.cb[k] else 0) ∧
    ((∀ m : MbIdx, s.mf[m].rqcp = false) →
      exec (.vecTx 0) s = .next { s with vl := s.vl.set 0 ⟨true, .none⟩, answers := s.answers ++ [⟨.ok, [0, 0]⟩] })

/-- R234, R237, R239: the FIFO 0 entry selects pending, then full, then overflow among the enabled kinds, latches its
clear, hands out its kind and handle, and changes nothing else; with none it answers two zero words. -/
def Obligations.ReceiveVectorSelectsInOrder : Prop :=
  ∀ s : State, s.vl[1].valid = false →
    ∃ (r0 r1 : Word) (a : ClearAct),
      exec (.vecRx0 0) s = .next { s with vl := s.vl.set 1 ⟨true, a⟩, answers := s.answers ++ [⟨.ok, [r0, r1]⟩] } ∧
      match selectRx s 0 with
      | some (k, act) => a = act ∧ HandsOut s k r0 r1
      | none => a = .none ∧ r0 = 0 ∧ r1 = 0

/-- R235, R237 to R239: the third vector's entry selects among FIFO 1's pending, full and overflow, then warning,
passive, bus-off and multi-error; for multi-error it copies the error code; nothing else changes. -/
def Obligations.SharedVectorSelectsFifoBeforeErrors : Prop :=
  ∀ s : State, s.vl[2].valid = false →
    ∃ (r0 r1 : Word) (a : ClearAct) (snap : BitVec 3),
      exec (.vecRx1Sce 0) s = .next { s with
        vl := s.vl.set 2 ⟨true, a⟩
        err := { s.err with lecSnap := snap }
        answers := s.answers ++ [⟨.ok, [r0, r1]⟩] } ∧
      match (selectRx s 1).or (selectErr s) with
      | some (k, act) => a = act ∧ HandsOut s k r0 r1 ∧ snap = if k = 18 then s.err.lec else s.err.lecSnap
      | none => a = .none ∧ r0 = 0 ∧ r1 = 0 ∧ snap = s.err.lecSnap

/-- R236: VEC_DONE of an open service performs exactly the latched clear (the five completion flags of one mailbox,
one FIFO flag, one error flag, or nothing), closes the service and changes nothing else; the error code and its
snapshot stay. -/
def Obligations.VectorDonePerformsTheLatchedClear : Prop :=
  ∀ (vector : BitVec 2) (v : VecIdx) (s : State), vector.toNat = v.val → s.vl[v].valid = true →
    ∃ (mf : Vector MbFlags 3) (fifo : Vector Fifo 2) (err : ErrStatus) (a : ClearAct),
      exec (.vecDone vector 0) s = .next { s with
        mf := mf, fifo := fifo, err := err, vl := s.vl.set v.val ⟨false, a⟩, answers := s.answers ++ [⟨.ok, []⟩] } ∧
      (∀ m : MbIdx, mf[m] = if s.vl[v].act = .clrRqcp m then ⟨s.mf[m].tme, false, false, false, false, false⟩
        else s.mf[m]) ∧
      (∀ f : FifoIdx, fifo[f] = { s.fifo[f] with
        full := s.fifo[f].full && decide (s.vl[v].act ≠ .clrFull f)
        fovr := s.fifo[f].fovr && decide (s.vl[v].act ≠ .clrFovr f) }) ∧
      err = { s.err with
        ewg := s.err.ewg && decide (s.vl[v].act ≠ .clrEwg)
        epv := s.err.epv && decide (s.vl[v].act ≠ .clrEpv)
        bof := s.err.bof && decide (s.vl[v].act ≠ .clrBof)
        merr := s.err.merr && decide (s.vl[v].act ≠ .clrMerr) }

/-- R231 (c), the source's property V7: a vector entry whose answer asks for a callback hands out the handle of a kind
that is enabled (with the umbrella for an error kind), and that handle is not null; without `call` it hands out 0. -/
def Obligations.DisabledKindIsNeverHandedOut : Prop :=
  ∀ (v : VecIdx) (s t : State) (r0 r1 : Word), exec (entryOf v) s = .next t →
    t.answers = s.answers ++ [⟨.ok, [r0, r1]⟩] →
    (bitOf r0 10 = false → r1 = 0) ∧
    (bitOf r0 10 = true →
      ∃ k : KindIdx, (fieldOf r0 0 5).toNat = k.val ∧ s.ntf.en.getLsbD k.val = true ∧
        (15 ≤ k.val → s.ntf.errie = true) ∧ r1 = s.ntf.cb[k] ∧ r1 ≠ 0)

/-- R241, R268: an entry of a vector with an open service is refused; any other opens it; the latches of the other
vectors, all flags, enables and handles are as they were, whatever it answers. -/
def Obligations.EntriesOpenOneServiceAndWriteOnlyTheLatch : Prop :=
  ∀ (v : VecIdx) (s : State), ∃ t, exec (entryOf v) s = .next t ∧
    (s.vl[v].valid = true → t = { s with answers := s.answers ++ [⟨.errProtocol, []⟩] }) ∧
    t.vl[v].valid = true ∧ (∀ v' : VecIdx, v' ≠ v → t.vl[v'] = s.vl[v']) ∧
    t = { s with vl := t.vl, err := { s.err with lecSnap := t.err.lecSnap }, answers := t.answers }

/-! Interrupt lines (60_exceptions.md). -/

/-- R263: the transmit line is high exactly when one of the nine mailbox kinds is enabled and some mailbox has its
request-complete flag set. -/
def Obligations.TransmitLineSharesOneEnable : Prop :=
  ∀ s : State, irq s 0 = true ↔
    (∃ k, k < 9 ∧ s.ntf.en.getLsbD k = true) ∧ ∃ m : MbIdx, s.mf[m].rqcp = true

/-- R264, R265: the equations of lines 1 and 2; an entry of their vectors finds an event (`ev` 1) exactly when the
line is high. -/
def Obligations.LinesAreHighExactlyWhenTheEntryFindsAnEvent : Prop :=
  ∀ s : State,
    (irq s 1 = true ↔
      (s.ntf.en.getLsbD 9 = true ∧ s.fifo[0].fmp ≠ 0) ∨ (s.ntf.en.getLsbD 10 = true ∧ s.fifo[0].full = true) ∨
        (s.ntf.en.getLsbD 11 = true ∧ s.fifo[0].fovr = true)) ∧
    (irq s 2 = true ↔
      (s.ntf.en.getLsbD 12 = true ∧ s.fifo[1].fmp ≠ 0) ∨ (s.ntf.en.getLsbD 13 = true ∧ s.fifo[1].full = true) ∨
        (s.ntf.en.getLsbD 14 = true ∧ s.fifo[1].fovr = true) ∨
        (s.ntf.errie = true ∧
          ((s.ntf.en.getLsbD 15 = true ∧ s.err.ewg = true) ∨ (s.ntf.en.getLsbD 16 = true ∧ s.err.epv = true) ∨
            (s.ntf.en.getLsbD 17 = true ∧ s.err.bof = true) ∨ (s.ntf.en.getLsbD 18 = true ∧ s.err.merr = true)))) ∧
    ∀ v : VecIdx, v ≠ 0 → s.vl[v].valid = false →
      ∃ (t : State) (r0 r1 : Word), exec (entryOf v) s = .next t ∧ t.answers = s.answers ++ [⟨.ok, [r0, r1]⟩] ∧
        bitOf r0 8 = irq s v

/-- R262: a line is high exactly when one of the sources of its vector is active, in every state whose mailbox flags
are consistent. -/
def Obligations.LineIsTheOrOfItsActiveSources : Prop :=
  ∀ (s : State) (v : VecIdx), (∀ m : MbIdx, FlagsInv s.mf[m]) →
    (irq s v = true ↔ ∃ k : KindIdx, kindVector k = v ∧ sourceActive s k = true)

/-- R271, R272: ErrEngine's four steps, enabled in every state, each set their flag; a multi-error with a code 1 to 7
also writes the code; nothing else changes. -/
def Obligations.ErrorEngineLatchesItsFlags : Prop :=
  ∀ s u : State,
    (AgentMoves .errWarn s u → step s = .next { u with err := { u.err with ewg := true } }) ∧
    (AgentMoves .errPassive s u → step s = .next { u with err := { u.err with epv := true } }) ∧
    (AgentMoves .errBusOff s u → step s = .next { u with err := { u.err with bof := true } }) ∧
    ∀ c : BitVec 3, 1 ≤ c.toNat → AgentMoves (.errBusErr c) s u →
      step s = .next { u with err := { u.err with merr := true, lec := c } }

/-! Reset (10_state.md R43, 70_reset_and_hazards.md). -/

/-- R43, R301: a reset turn leaves every element the table gives a value at that value, whatever the state before and
whatever is drawn for the others; an INIT in progress is abandoned without an answer. -/
def Obligations.ResetGivesTheTableValues : Prop :=
  ∀ (s : State) (d : ResetDraw) (r : List Turn), s.sched = .reset d :: r →
    ∃ t, step s = .next t ∧ t.mc = ⟨true, true, false, false⟩ ∧ t.hpt.hp = .idle ∧
      (∀ m : MbIdx, t.mf[m] = ⟨true, false, false, false, false, false⟩) ∧ t.txq = [] ∧
      (∀ f : FifoIdx, t.fifo[f].fmp = 0 ∧ t.fifo[f].full = false ∧ t.fifo[f].fovr = false ∧ t.fifo[f].head = 0) ∧
      t.flt.finit = true ∧ t.flt.act = 0 ∧ t.flt.fbm = 0 ∧ t.flt.fsc = 0 ∧ t.flt.ffa = 0 ∧
      t.ntf.en = 0 ∧ t.ntf.errie = false ∧ (∀ k : KindIdx, t.ntf.cb[k] = 0) ∧
      t.err = ⟨false, false, false, false, 0, 0⟩ ∧ (∀ v : VecIdx, t.vl[v].valid = false) ∧
      (∀ v : VecIdx, irq t v = false) ∧ t.answers = s.answers

/-- R301, R302: a reset turn leaves a state after reset, with the record of answers and emissions and the inputs still
to come as they were (log entry 6). In every such state, whatever was drawn and recorded, exactly ErrEngine's steps are
enabled, none of ModeEngine, TxEngine or RxEngine; the turn of a step that is not enabled changes nothing (log
entry 10). -/
def Obligations.AfterResetOnlyTheErrorEngineMoves : Prop :=
  (∀ (d : ResetDraw) (s : State) (r : List Turn), s.sched = .reset d :: r →
    step s = .next { State.resetWith d s.par with
      port := s.port, sched := r, answers := s.answers, collab := s.collab, busTx := s.busTx }) ∧
  ∀ (d : ResetDraw) (par : Params) (u : State) (a : AgentStep),
    u = { State.resetWith d par with
      port := u.port, sched := u.sched, answers := u.answers, collab := u.collab, busTx := u.busTx } →
    (agentEnabled a u = true ↔
      a = .errWarn ∨ a = .errPassive ∨ a = .errBusOff ∨ ∃ c : BitVec 3, c ≠ 0 ∧ a = .errBusErr c) ∧
    ∀ s : State, AgentMoves a s u → agentEnabled a u = false → step s = .next u

/-! Invariants (10_state.md R42). -/

/-- R42, R43: the invariant holds after every reset, whatever is drawn for the elements R43 leaves unspecified; that it
holds of `State.reset` rests on the model's choice of those elements (log entry 5) and of the parameters (entry 8). -/
def Obligations.InvariantHoldsAfterReset : Prop :=
  (∀ (d : ResetDraw) (par : Params), Inv (State.resetWith d par)) ∧ Inv State.reset

/-- R42 (a) to (d) and the facts they rest on are kept by every step of the machine: host operations, phases of
INIT, agent steps and resets. -/
def Obligations.EveryStepKeepsTheInvariant : Prop :=
  ∀ s t : State, Inv s → step s = .next t → Inv t

/-- R47: no step changes the parameters. -/
def Obligations.ParametersAreFixedForARun : Prop :=
  ∀ s t : State, step s = .next t → t.par = s.par
end

