-- ==== Sys2Proof/Laws/Bits.lean ====
section
/-! SUPPORT. Laws of bit fields: a field placed at a position reads back there, reads 0 elsewhere, and reading
distributes over `|||`. With these as a simp set, what a packed word holds is found without unfolding it. -/

namespace Sys2Proof.Machine

@[simp] theorem fieldOf_or (a b : Word) (lo n : Nat) :
    fieldOf (a ||| b) lo n = fieldOf a lo n ||| fieldOf b lo n := by
  simp [fieldOf, BitVec.extractLsb'_or]

@[simp] theorem bitOf_or (a b : Word) (i : Nat) : bitOf (a ||| b) i = (bitOf a i || bitOf b i) := by
  simp [bitOf]

@[simp] theorem fieldOf_zero (lo n : Nat) : fieldOf 0 lo n = 0#n := by
  apply BitVec.eq_of_getLsbD_eq
  intro i hi
  simp [fieldOf]

@[simp] theorem bitOf_zero (i : Nat) : bitOf 0 i = false := by simp [bitOf]

theorem bitOf_fieldAt {n : Nat} (lo : Nat) (f : BitVec n) (i : Nat) (h : i < 32) :
    bitOf (fieldAt lo f) i = (decide (lo ≤ i) && f.getLsbD (i - lo)) := by
  unfold bitOf fieldAt
  rw [BitVec.getLsbD_shiftLeft, BitVec.getLsbD_setWidth]
  by_cases h2 : lo ≤ i
  · have : i - lo < 32 := by omega
    simp [h, h2, this, Nat.not_lt.2 h2]
  · simp [h2, Nat.lt_of_not_le h2]

/-- A bit of a field: inside the field it is the field's bit, outside it is 0. -/
theorem bitOf_fieldAt_outside {n : Nat} (lo : Nat) (f : BitVec n) (i : Nat) (h : i < lo ∨ lo + n ≤ i) :
    bitOf (fieldAt lo f) i = false := by
  unfold bitOf fieldAt
  rw [BitVec.getLsbD_shiftLeft, BitVec.getLsbD_setWidth]
  rcases h with h | h
  · simp [h]
  · have : f.getLsbD (i - lo) = false := BitVec.getLsbD_of_ge _ _ (by omega)
    simp [this]

@[simp] theorem bitOf_bitAt_same (i : Nat) (b : Bool) (h : i < 32) : bitOf (bitAt i b) i = b := by
  unfold bitAt
  rw [bitOf_fieldAt _ _ _ h]
  simp

@[simp] theorem bitOf_bitAt_other (i j : Nat) (b : Bool) (h : i ≠ j) : bitOf (bitAt i b) j = false :=
  bitOf_fieldAt_outside _ _ _ (by omega)

@[simp] theorem fieldOf_fieldAt_same {n : Nat} (lo : Nat) (f : BitVec n) (h : lo + n ≤ 32) :
    fieldOf (fieldAt lo f) lo n = f := by
  apply BitVec.eq_of_getLsbD_eq
  intro i hi
  have := bitOf_fieldAt lo f (lo + i) (by omega)
  simpa [fieldOf, bitOf, hi] using this

/-- A field read where another field, disjoint from it, stands is 0. -/
@[simp] theorem fieldOf_fieldAt_disjoint {n : Nat} (lo : Nat) (f : BitVec n) (lo' n' : Nat)
    (h : lo + n ≤ lo' ∨ lo' + n' ≤ lo) : fieldOf (fieldAt lo f) lo' n' = 0#n' := by
  apply BitVec.eq_of_getLsbD_eq
  intro i hi
  have := bitOf_fieldAt_outside lo f (lo' + i) (by omega)
  simpa [fieldOf, bitOf, hi] using this

@[simp] theorem fieldOf_bitAt_disjoint (i : Nat) (b : Bool) (lo' n' : Nat) (h : i + 1 ≤ lo' ∨ lo' + n' ≤ i) :
    fieldOf (bitAt i b) lo' n' = 0#n' :=
  fieldOf_fieldAt_disjoint _ _ _ _ h

@[simp] theorem bitOf_fieldAt_disjoint {n : Nat} (lo : Nat) (f : BitVec n) (i : Nat) (h : i < lo ∨ lo + n ≤ i) :
    bitOf (fieldAt lo f) i = false :=
  bitOf_fieldAt_outside lo f i h

/-- Two words with the same 32 bits are equal. -/
theorem word_ext {a b : Word} (h : ∀ i, i < 32 → bitOf a i = bitOf b i) : a = b :=
  BitVec.eq_of_getLsbD_eq h

/-- A bit of a field of a word is a bit of the word. -/
@[simp] theorem getLsbD_fieldOf (w : Word) (lo n i : Nat) :
    (fieldOf w lo n).getLsbD i = (decide (i < n) && bitOf w (lo + i)) := by
  simp [fieldOf, bitOf, BitVec.getLsbD_extractLsb']

end Sys2Proof.Machine
end

