-- ==== Sys2Proof/Laws/PerInstr.lean ====
section
/-! SUPPORT. Facts about every operation's encoding, one lemma per constructor: the length of its transaction
(R102) and the opcode byte of its command word (R80, R81). -/

namespace Sys2Proof.Laws

/-- R102: the transaction of an operation has one command word and the row's operand words. -/
def EncodedLength.Statement (i : Instr) : Prop := (encode i).length = 1 + i.op.row.nIn

/-- R80, R81: the command word carries the row's opcode whatever the fields hold. -/
def OpcodeByte.Statement (i : Instr) : Prop := opcodeByte (commandWord i) = i.op.row.opcode

theorem EncodedLength.init lbkm silm baud ttcm abom awum art rflm txfp rsvd : EncodedLength.Statement (.init lbkm silm baud ttcm abom awum art rflm txfp rsvd) := rfl
theorem EncodedLength.start rsvd : EncodedLength.Statement (.start rsvd) := rfl
theorem EncodedLength.finitEnter rsvd : EncodedLength.Statement (.finitEnter rsvd) := rfl
theorem EncodedLength.finitExit rsvd : EncodedLength.Statement (.finitExit rsvd) := rfl
theorem EncodedLength.cfgFilter bank fbm fsc ffa rsvd w0 w1 : EncodedLength.Statement (.cfgFilter bank fbm fsc ffa rsvd w0 w1) := rfl
theorem EncodedLength.transmit ide rtr dlc tgt rsvd w0 w1 w2 : EncodedLength.Statement (.transmit ide rtr dlc tgt rsvd w0 w1 w2) := rfl
theorem EncodedLength.receive fifo rsvd : EncodedLength.Statement (.receive fifo rsvd) := rfl
theorem EncodedLength.freeCount rsvd : EncodedLength.Statement (.freeCount rsvd) := rfl
theorem EncodedLength.mboxPending index rsvd : EncodedLength.Statement (.mboxPending index rsvd) := rfl
theorem EncodedLength.fifoCount fifo rsvd : EncodedLength.Statement (.fifoCount fifo rsvd) := rfl
theorem EncodedLength.notifyEn kind rsvd h : EncodedLength.Statement (.notifyEn kind rsvd h) := rfl
theorem EncodedLength.notifyDis kind rsvd : EncodedLength.Statement (.notifyDis kind rsvd) := rfl
theorem EncodedLength.vecTx rsvd : EncodedLength.Statement (.vecTx rsvd) := rfl
theorem EncodedLength.vecRx0 rsvd : EncodedLength.Statement (.vecRx0 rsvd) := rfl
theorem EncodedLength.vecRx1Sce rsvd : EncodedLength.Statement (.vecRx1Sce rsvd) := rfl
theorem EncodedLength.vecDone vector rsvd : EncodedLength.Statement (.vecDone vector rsvd) := rfl
theorem EncodedLength.rdCfg rsvd : EncodedLength.Statement (.rdCfg rsvd) := rfl
theorem EncodedLength.rdMsr rsvd : EncodedLength.Statement (.rdMsr rsvd) := rfl
theorem EncodedLength.rdTsr rsvd : EncodedLength.Statement (.rdTsr rsvd) := rfl
theorem EncodedLength.rdRfr fifo rsvd : EncodedLength.Statement (.rdRfr fifo rsvd) := rfl
theorem EncodedLength.rdEsr rsvd : EncodedLength.Statement (.rdEsr rsvd) := rfl
theorem EncodedLength.rdIer rsvd : EncodedLength.Statement (.rdIer rsvd) := rfl
theorem EncodedLength.rdFbank bank rsvd : EncodedLength.Statement (.rdFbank bank rsvd) := rfl

theorem OpcodeByte.init lbkm silm baud ttcm abom awum art rflm txfp rsvd : OpcodeByte.Statement (.init lbkm silm baud ttcm abom awum art rflm txfp rsvd) := by
  simp [OpcodeByte.Statement, opcodeByte, commandWord, fieldsWord, Instr.op, Op.row]
theorem OpcodeByte.start rsvd : OpcodeByte.Statement (.start rsvd) := by
  simp [OpcodeByte.Statement, opcodeByte, commandWord, fieldsWord, Instr.op, Op.row]
theorem OpcodeByte.finitEnter rsvd : OpcodeByte.Statement (.finitEnter rsvd) := by
  simp [OpcodeByte.Statement, opcodeByte, commandWord, fieldsWord, Instr.op, Op.row]
theorem OpcodeByte.finitExit rsvd : OpcodeByte.Statement (.finitExit rsvd) := by
  simp [OpcodeByte.Statement, opcodeByte, commandWord, fieldsWord, Instr.op, Op.row]
theorem OpcodeByte.cfgFilter bank fbm fsc ffa rsvd w0 w1 : OpcodeByte.Statement (.cfgFilter bank fbm fsc ffa rsvd w0 w1) := by
  simp [OpcodeByte.Statement, opcodeByte, commandWord, fieldsWord, Instr.op, Op.row]
theorem OpcodeByte.transmit ide rtr dlc tgt rsvd w0 w1 w2 : OpcodeByte.Statement (.transmit ide rtr dlc tgt rsvd w0 w1 w2) := by
  simp [OpcodeByte.Statement, opcodeByte, commandWord, fieldsWord, Instr.op, Op.row]
theorem OpcodeByte.receive fifo rsvd : OpcodeByte.Statement (.receive fifo rsvd) := by
  simp [OpcodeByte.Statement, opcodeByte, commandWord, fieldsWord, Instr.op, Op.row]
theorem OpcodeByte.freeCount rsvd : OpcodeByte.Statement (.freeCount rsvd) := by
  simp [OpcodeByte.Statement, opcodeByte, commandWord, fieldsWord, Instr.op, Op.row]
theorem OpcodeByte.mboxPending index rsvd : OpcodeByte.Statement (.mboxPending index rsvd) := by
  simp [OpcodeByte.Statement, opcodeByte, commandWord, fieldsWord, Instr.op, Op.row]
theorem OpcodeByte.fifoCount fifo rsvd : OpcodeByte.Statement (.fifoCount fifo rsvd) := by
  simp [OpcodeByte.Statement, opcodeByte, commandWord, fieldsWord, Instr.op, Op.row]
theorem OpcodeByte.notifyEn kind rsvd h : OpcodeByte.Statement (.notifyEn kind rsvd h) := by
  simp [OpcodeByte.Statement, opcodeByte, commandWord, fieldsWord, Instr.op, Op.row]
theorem OpcodeByte.notifyDis kind rsvd : OpcodeByte.Statement (.notifyDis kind rsvd) := by
  simp [OpcodeByte.Statement, opcodeByte, commandWord, fieldsWord, Instr.op, Op.row]
theorem OpcodeByte.vecTx rsvd : OpcodeByte.Statement (.vecTx rsvd) := by
  simp [OpcodeByte.Statement, opcodeByte, commandWord, fieldsWord, Instr.op, Op.row]
theorem OpcodeByte.vecRx0 rsvd : OpcodeByte.Statement (.vecRx0 rsvd) := by
  simp [OpcodeByte.Statement, opcodeByte, commandWord, fieldsWord, Instr.op, Op.row]
theorem OpcodeByte.vecRx1Sce rsvd : OpcodeByte.Statement (.vecRx1Sce rsvd) := by
  simp [OpcodeByte.Statement, opcodeByte, commandWord, fieldsWord, Instr.op, Op.row]
theorem OpcodeByte.vecDone vector rsvd : OpcodeByte.Statement (.vecDone vector rsvd) := by
  simp [OpcodeByte.Statement, opcodeByte, commandWord, fieldsWord, Instr.op, Op.row]
theorem OpcodeByte.rdCfg rsvd : OpcodeByte.Statement (.rdCfg rsvd) := by
  simp [OpcodeByte.Statement, opcodeByte, commandWord, fieldsWord, Instr.op, Op.row]
theorem OpcodeByte.rdMsr rsvd : OpcodeByte.Statement (.rdMsr rsvd) := by
  simp [OpcodeByte.Statement, opcodeByte, commandWord, fieldsWord, Instr.op, Op.row]
theorem OpcodeByte.rdTsr rsvd : OpcodeByte.Statement (.rdTsr rsvd) := by
  simp [OpcodeByte.Statement, opcodeByte, commandWord, fieldsWord, Instr.op, Op.row]
theorem OpcodeByte.rdRfr fifo rsvd : OpcodeByte.Statement (.rdRfr fifo rsvd) := by
  simp [OpcodeByte.Statement, opcodeByte, commandWord, fieldsWord, Instr.op, Op.row]
theorem OpcodeByte.rdEsr rsvd : OpcodeByte.Statement (.rdEsr rsvd) := by
  simp [OpcodeByte.Statement, opcodeByte, commandWord, fieldsWord, Instr.op, Op.row]
theorem OpcodeByte.rdIer rsvd : OpcodeByte.Statement (.rdIer rsvd) := by
  simp [OpcodeByte.Statement, opcodeByte, commandWord, fieldsWord, Instr.op, Op.row]
theorem OpcodeByte.rdFbank bank rsvd : OpcodeByte.Statement (.rdFbank bank rsvd) := by
  simp [OpcodeByte.Statement, opcodeByte, commandWord, fieldsWord, Instr.op, Op.row]

end Sys2Proof.Laws
end

