-- ==== Sys2Proof/Laws/Encoding.lean ====
section
/-! SUPPORT. Laws of the opcode map and of packing a word from its own fields. -/

namespace Sys2Proof

open Machine (fieldAt bitAt fieldOf bitOf)

/-- No two rows of the opcode map have the same opcode. -/
theorem opcodes_distinct : allOps.Pairwise fun a b => a.row.opcode ≠ b.row.opcode := by decide

theorem mem_allOps (op : Op) : op ∈ allOps := by cases op <;> decide

/-- A command word with an operation's opcode selects it. -/
theorem opOf_of_opcode (op : Op) (cw : Word) (h : opcodeByte cw = op.row.opcode) : opOf cw = some op := by
  unfold opOf
  rw [h]
  cases op <;> rfl

/-- A selected operation has the command word's opcode. -/
theorem opcode_of_opOf (op : Op) (cw : Word) (h : opOf cw = some op) : op.row.opcode = opcodeByte cw := by
  simpa using List.find?_some h

theorem opcodeByte_commandWord (i : Instr) : opcodeByte (commandWord i) = i.op.row.opcode := by
  cases i <;> simp [opcodeByte, commandWord, fieldsWord, Instr.op, Op.row]

theorem opOf_commandWord (i : Instr) : opOf (commandWord i) = some i.op :=
  opOf_of_opcode _ _ (opcodeByte_commandWord i)

/-- Assembling gives an instruction of the row. -/
theorem assemble_op (op : Op) (cw w0 w1 w2 : Word) : (assemble op cw w0 w1 w2).op = op := by
  cases op <;> rfl

/-- A one-bit field is a bit. -/
theorem bitAt_bitOf (w : Word) (i : Nat) : bitAt i (bitOf w i) = fieldAt i (fieldOf w i 1) := by
  unfold bitAt
  congr 1
  apply BitVec.eq_of_getLsbD_eq
  intro j hj
  obtain rfl : j = 0 := by omega
  simp [bitOf, fieldOf]

/-- Two adjacent fields of a word, put back, are the joint field put back. -/
theorem fieldAt_join (w : Word) (lo n k : Nat) :
    fieldAt lo (fieldOf w lo n) ||| fieldAt (lo + n) (fieldOf w (lo + n) k) = fieldAt lo (fieldOf w lo (n + k)) := by
  apply Machine.word_ext
  intro i hi
  rw [Machine.bitOf_or, Machine.bitOf_fieldAt _ _ _ hi, Machine.bitOf_fieldAt _ _ _ hi, Machine.bitOf_fieldAt _ _ _ hi]
  simp only [Machine.getLsbD_fieldOf]
  by_cases h1 : lo ≤ i
  · by_cases h2 : lo + n ≤ i
    · have e : lo + n + (i - (lo + n)) = lo + (i - lo) := by omega
      have e1 : ¬ (i - lo < n) := by omega
      have e2 : i - (lo + n) < k ↔ i - lo < n + k := by omega
      simp [h1, h2, e, e1, e2]
    · have e1 : i - lo < n := by omega
      have e2 : i - lo < n + k := by omega
      simp [h1, h2, e1, e2]
  · have h2 : ¬ lo + n ≤ i := by omega
    simp [h1, h2]

/-- All 32 bits put back are the word. -/
theorem fieldAt_whole (w : Word) : fieldAt 0 (fieldOf w 0 32) = w := by
  apply Machine.word_ext
  intro i hi
  rw [Machine.bitOf_fieldAt _ _ _ hi, Machine.getLsbD_fieldOf]
  simp [hi]

end Sys2Proof
end

