-- ==== Sys2Proof/Laws/State.lean ====
section
/-! SUPPORT. What every named update of the state does to every field: one lemma per field per update, true by
rfl, so that no later proof unfolds a record update; and what an indexed field reads after an indexed update. -/

namespace Sys2Proof.Machine

variable (s : State)

@[simp] theorem State.setMc_mc (x : ModeCtl) : (s.setMc x).mc = x := rfl
@[simp] theorem State.setMc_hpt (x : ModeCtl) : (s.setMc x).hpt = s.hpt := rfl
@[simp] theorem State.setMc_cfg (x : ModeCtl) : (s.setMc x).cfg = s.cfg := rfl
@[simp] theorem State.setMc_mb (x : ModeCtl) : (s.setMc x).mb = s.mb := rfl
@[simp] theorem State.setMc_mf (x : ModeCtl) : (s.setMc x).mf = s.mf := rfl
@[simp] theorem State.setMc_txq (x : ModeCtl) : (s.setMc x).txq = s.txq := rfl
@[simp] theorem State.setMc_fifo (x : ModeCtl) : (s.setMc x).fifo = s.fifo := rfl
@[simp] theorem State.setMc_flt (x : ModeCtl) : (s.setMc x).flt = s.flt := rfl
@[simp] theorem State.setMc_ntf (x : ModeCtl) : (s.setMc x).ntf = s.ntf := rfl
@[simp] theorem State.setMc_err (x : ModeCtl) : (s.setMc x).err = s.err := rfl
@[simp] theorem State.setMc_vl (x : ModeCtl) : (s.setMc x).vl = s.vl := rfl
@[simp] theorem State.setMc_par (x : ModeCtl) : (s.setMc x).par = s.par := rfl
@[simp] theorem State.setMc_port (x : ModeCtl) : (s.setMc x).port = s.port := rfl
@[simp] theorem State.setMc_sched (x : ModeCtl) : (s.setMc x).sched = s.sched := rfl
@[simp] theorem State.setMc_answers (x : ModeCtl) : (s.setMc x).answers = s.answers := rfl
@[simp] theorem State.setMc_collab (x : ModeCtl) : (s.setMc x).collab = s.collab := rfl
@[simp] theorem State.setMc_busTx (x : ModeCtl) : (s.setMc x).busTx = s.busTx := rfl

@[simp] theorem State.setHpt_mc (x : HostPort) : (s.setHpt x).mc = s.mc := rfl
@[simp] theorem State.setHpt_hpt (x : HostPort) : (s.setHpt x).hpt = x := rfl
@[simp] theorem State.setHpt_cfg (x : HostPort) : (s.setHpt x).cfg = s.cfg := rfl
@[simp] theorem State.setHpt_mb (x : HostPort) : (s.setHpt x).mb = s.mb := rfl
@[simp] theorem State.setHpt_mf (x : HostPort) : (s.setHpt x).mf = s.mf := rfl
@[simp] theorem State.setHpt_txq (x : HostPort) : (s.setHpt x).txq = s.txq := rfl
@[simp] theorem State.setHpt_fifo (x : HostPort) : (s.setHpt x).fifo = s.fifo := rfl
@[simp] theorem State.setHpt_flt (x : HostPort) : (s.setHpt x).flt = s.flt := rfl
@[simp] theorem State.setHpt_ntf (x : HostPort) : (s.setHpt x).ntf = s.ntf := rfl
@[simp] theorem State.setHpt_err (x : HostPort) : (s.setHpt x).err = s.err := rfl
@[simp] theorem State.setHpt_vl (x : HostPort) : (s.setHpt x).vl = s.vl := rfl
@[simp] theorem State.setHpt_par (x : HostPort) : (s.setHpt x).par = s.par := rfl
@[simp] theorem State.setHpt_port (x : HostPort) : (s.setHpt x).port = s.port := rfl
@[simp] theorem State.setHpt_sched (x : HostPort) : (s.setHpt x).sched = s.sched := rfl
@[simp] theorem State.setHpt_answers (x : HostPort) : (s.setHpt x).answers = s.answers := rfl
@[simp] theorem State.setHpt_collab (x : HostPort) : (s.setHpt x).collab = s.collab := rfl
@[simp] theorem State.setHpt_busTx (x : HostPort) : (s.setHpt x).busTx = s.busTx := rfl

@[simp] theorem State.setCfg_mc (x : Cfg) : (s.setCfg x).mc = s.mc := rfl
@[simp] theorem State.setCfg_hpt (x : Cfg) : (s.setCfg x).hpt = s.hpt := rfl
@[simp] theorem State.setCfg_cfg (x : Cfg) : (s.setCfg x).cfg = x := rfl
@[simp] theorem State.setCfg_mb (x : Cfg) : (s.setCfg x).mb = s.mb := rfl
@[simp] theorem State.setCfg_mf (x : Cfg) : (s.setCfg x).mf = s.mf := rfl
@[simp] theorem State.setCfg_txq (x : Cfg) : (s.setCfg x).txq = s.txq := rfl
@[simp] theorem State.setCfg_fifo (x : Cfg) : (s.setCfg x).fifo = s.fifo := rfl
@[simp] theorem State.setCfg_flt (x : Cfg) : (s.setCfg x).flt = s.flt := rfl
@[simp] theorem State.setCfg_ntf (x : Cfg) : (s.setCfg x).ntf = s.ntf := rfl
@[simp] theorem State.setCfg_err (x : Cfg) : (s.setCfg x).err = s.err := rfl
@[simp] theorem State.setCfg_vl (x : Cfg) : (s.setCfg x).vl = s.vl := rfl
@[simp] theorem State.setCfg_par (x : Cfg) : (s.setCfg x).par = s.par := rfl
@[simp] theorem State.setCfg_port (x : Cfg) : (s.setCfg x).port = s.port := rfl
@[simp] theorem State.setCfg_sched (x : Cfg) : (s.setCfg x).sched = s.sched := rfl
@[simp] theorem State.setCfg_answers (x : Cfg) : (s.setCfg x).answers = s.answers := rfl
@[simp] theorem State.setCfg_collab (x : Cfg) : (s.setCfg x).collab = s.collab := rfl
@[simp] theorem State.setCfg_busTx (x : Cfg) : (s.setCfg x).busTx = s.busTx := rfl

@[simp] theorem State.setMb_mc (m : MbIdx) (x : Mailbox) : (s.setMb m x).mc = s.mc := rfl
@[simp] theorem State.setMb_hpt (m : MbIdx) (x : Mailbox) : (s.setMb m x).hpt = s.hpt := rfl
@[simp] theorem State.setMb_cfg (m : MbIdx) (x : Mailbox) : (s.setMb m x).cfg = s.cfg := rfl
@[simp] theorem State.setMb_mb (m : MbIdx) (x : Mailbox) : (s.setMb m x).mb = s.mb.set m.val x := rfl
@[simp] theorem State.setMb_mf (m : MbIdx) (x : Mailbox) : (s.setMb m x).mf = s.mf := rfl
@[simp] theorem State.setMb_txq (m : MbIdx) (x : Mailbox) : (s.setMb m x).txq = s.txq := rfl
@[simp] theorem State.setMb_fifo (m : MbIdx) (x : Mailbox) : (s.setMb m x).fifo = s.fifo := rfl
@[simp] theorem State.setMb_flt (m : MbIdx) (x : Mailbox) : (s.setMb m x).flt = s.flt := rfl
@[simp] theorem State.setMb_ntf (m : MbIdx) (x : Mailbox) : (s.setMb m x).ntf = s.ntf := rfl
@[simp] theorem State.setMb_err (m : MbIdx) (x : Mailbox) : (s.setMb m x).err = s.err := rfl
@[simp] theorem State.setMb_vl (m : MbIdx) (x : Mailbox) : (s.setMb m x).vl = s.vl := rfl
@[simp] theorem State.setMb_par (m : MbIdx) (x : Mailbox) : (s.setMb m x).par = s.par := rfl
@[simp] theorem State.setMb_port (m : MbIdx) (x : Mailbox) : (s.setMb m x).port = s.port := rfl
@[simp] theorem State.setMb_sched (m : MbIdx) (x : Mailbox) : (s.setMb m x).sched = s.sched := rfl
@[simp] theorem State.setMb_answers (m : MbIdx) (x : Mailbox) : (s.setMb m x).answers = s.answers := rfl
@[simp] theorem State.setMb_collab (m : MbIdx) (x : Mailbox) : (s.setMb m x).collab = s.collab := rfl
@[simp] theorem State.setMb_busTx (m : MbIdx) (x : Mailbox) : (s.setMb m x).busTx = s.busTx := rfl

@[simp] theorem State.setMf_mc (m : MbIdx) (x : MbFlags) : (s.setMf m x).mc = s.mc := rfl
@[simp] theorem State.setMf_hpt (m : MbIdx) (x : MbFlags) : (s.setMf m x).hpt = s.hpt := rfl
@[simp] theorem State.setMf_cfg (m : MbIdx) (x : MbFlags) : (s.setMf m x).cfg = s.cfg := rfl
@[simp] theorem State.setMf_mb (m : MbIdx) (x : MbFlags) : (s.setMf m x).mb = s.mb := rfl
@[simp] theorem State.setMf_mf (m : MbIdx) (x : MbFlags) : (s.setMf m x).mf = s.mf.set m.val x := rfl
@[simp] theorem State.setMf_txq (m : MbIdx) (x : MbFlags) : (s.setMf m x).txq = s.txq := rfl
@[simp] theorem State.setMf_fifo (m : MbIdx) (x : MbFlags) : (s.setMf m x).fifo = s.fifo := rfl
@[simp] theorem State.setMf_flt (m : MbIdx) (x : MbFlags) : (s.setMf m x).flt = s.flt := rfl
@[simp] theorem State.setMf_ntf (m : MbIdx) (x : MbFlags) : (s.setMf m x).ntf = s.ntf := rfl
@[simp] theorem State.setMf_err (m : MbIdx) (x : MbFlags) : (s.setMf m x).err = s.err := rfl
@[simp] theorem State.setMf_vl (m : MbIdx) (x : MbFlags) : (s.setMf m x).vl = s.vl := rfl
@[simp] theorem State.setMf_par (m : MbIdx) (x : MbFlags) : (s.setMf m x).par = s.par := rfl
@[simp] theorem State.setMf_port (m : MbIdx) (x : MbFlags) : (s.setMf m x).port = s.port := rfl
@[simp] theorem State.setMf_sched (m : MbIdx) (x : MbFlags) : (s.setMf m x).sched = s.sched := rfl
@[simp] theorem State.setMf_answers (m : MbIdx) (x : MbFlags) : (s.setMf m x).answers = s.answers := rfl
@[simp] theorem State.setMf_collab (m : MbIdx) (x : MbFlags) : (s.setMf m x).collab = s.collab := rfl
@[simp] theorem State.setMf_busTx (m : MbIdx) (x : MbFlags) : (s.setMf m x).busTx = s.busTx := rfl

@[simp] theorem State.setTxq_mc (x : List MbIdx) : (s.setTxq x).mc = s.mc := rfl
@[simp] theorem State.setTxq_hpt (x : List MbIdx) : (s.setTxq x).hpt = s.hpt := rfl
@[simp] theorem State.setTxq_cfg (x : List MbIdx) : (s.setTxq x).cfg = s.cfg := rfl
@[simp] theorem State.setTxq_mb (x : List MbIdx) : (s.setTxq x).mb = s.mb := rfl
@[simp] theorem State.setTxq_mf (x : List MbIdx) : (s.setTxq x).mf = s.mf := rfl
@[simp] theorem State.setTxq_txq (x : List MbIdx) : (s.setTxq x).txq = x := rfl
@[simp] theorem State.setTxq_fifo (x : List MbIdx) : (s.setTxq x).fifo = s.fifo := rfl
@[simp] theorem State.setTxq_flt (x : List MbIdx) : (s.setTxq x).flt = s.flt := rfl
@[simp] theorem State.setTxq_ntf (x : List MbIdx) : (s.setTxq x).ntf = s.ntf := rfl
@[simp] theorem State.setTxq_err (x : List MbIdx) : (s.setTxq x).err = s.err := rfl
@[simp] theorem State.setTxq_vl (x : List MbIdx) : (s.setTxq x).vl = s.vl := rfl
@[simp] theorem State.setTxq_par (x : List MbIdx) : (s.setTxq x).par = s.par := rfl
@[simp] theorem State.setTxq_port (x : List MbIdx) : (s.setTxq x).port = s.port := rfl
@[simp] theorem State.setTxq_sched (x : List MbIdx) : (s.setTxq x).sched = s.sched := rfl
@[simp] theorem State.setTxq_answers (x : List MbIdx) : (s.setTxq x).answers = s.answers := rfl
@[simp] theorem State.setTxq_collab (x : List MbIdx) : (s.setTxq x).collab = s.collab := rfl
@[simp] theorem State.setTxq_busTx (x : List MbIdx) : (s.setTxq x).busTx = s.busTx := rfl

@[simp] theorem State.setFifo_mc (f : FifoIdx) (x : Fifo) : (s.setFifo f x).mc = s.mc := rfl
@[simp] theorem State.setFifo_hpt (f : FifoIdx) (x : Fifo) : (s.setFifo f x).hpt = s.hpt := rfl
@[simp] theorem State.setFifo_cfg (f : FifoIdx) (x : Fifo) : (s.setFifo f x).cfg = s.cfg := rfl
@[simp] theorem State.setFifo_mb (f : FifoIdx) (x : Fifo) : (s.setFifo f x).mb = s.mb := rfl
@[simp] theorem State.setFifo_mf (f : FifoIdx) (x : Fifo) : (s.setFifo f x).mf = s.mf := rfl
@[simp] theorem State.setFifo_txq (f : FifoIdx) (x : Fifo) : (s.setFifo f x).txq = s.txq := rfl
@[simp] theorem State.setFifo_fifo (f : FifoIdx) (x : Fifo) : (s.setFifo f x).fifo = s.fifo.set f.val x := rfl
@[simp] theorem State.setFifo_flt (f : FifoIdx) (x : Fifo) : (s.setFifo f x).flt = s.flt := rfl
@[simp] theorem State.setFifo_ntf (f : FifoIdx) (x : Fifo) : (s.setFifo f x).ntf = s.ntf := rfl
@[simp] theorem State.setFifo_err (f : FifoIdx) (x : Fifo) : (s.setFifo f x).err = s.err := rfl
@[simp] theorem State.setFifo_vl (f : FifoIdx) (x : Fifo) : (s.setFifo f x).vl = s.vl := rfl
@[simp] theorem State.setFifo_par (f : FifoIdx) (x : Fifo) : (s.setFifo f x).par = s.par := rfl
@[simp] theorem State.setFifo_port (f : FifoIdx) (x : Fifo) : (s.setFifo f x).port = s.port := rfl
@[simp] theorem State.setFifo_sched (f : FifoIdx) (x : Fifo) : (s.setFifo f x).sched = s.sched := rfl
@[simp] theorem State.setFifo_answers (f : FifoIdx) (x : Fifo) : (s.setFifo f x).answers = s.answers := rfl
@[simp] theorem State.setFifo_collab (f : FifoIdx) (x : Fifo) : (s.setFifo f x).collab = s.collab := rfl
@[simp] theorem State.setFifo_busTx (f : FifoIdx) (x : Fifo) : (s.setFifo f x).busTx = s.busTx := rfl

@[simp] theorem State.setFlt_mc (x : Filters) : (s.setFlt x).mc = s.mc := rfl
@[simp] theorem State.setFlt_hpt (x : Filters) : (s.setFlt x).hpt = s.hpt := rfl
@[simp] theorem State.setFlt_cfg (x : Filters) : (s.setFlt x).cfg = s.cfg := rfl
@[simp] theorem State.setFlt_mb (x : Filters) : (s.setFlt x).mb = s.mb := rfl
@[simp] theorem State.setFlt_mf (x : Filters) : (s.setFlt x).mf = s.mf := rfl
@[simp] theorem State.setFlt_txq (x : Filters) : (s.setFlt x).txq = s.txq := rfl
@[simp] theorem State.setFlt_fifo (x : Filters) : (s.setFlt x).fifo = s.fifo := rfl
@[simp] theorem State.setFlt_flt (x : Filters) : (s.setFlt x).flt = x := rfl
@[simp] theorem State.setFlt_ntf (x : Filters) : (s.setFlt x).ntf = s.ntf := rfl
@[simp] theorem State.setFlt_err (x : Filters) : (s.setFlt x).err = s.err := rfl
@[simp] theorem State.setFlt_vl (x : Filters) : (s.setFlt x).vl = s.vl := rfl
@[simp] theorem State.setFlt_par (x : Filters) : (s.setFlt x).par = s.par := rfl
@[simp] theorem State.setFlt_port (x : Filters) : (s.setFlt x).port = s.port := rfl
@[simp] theorem State.setFlt_sched (x : Filters) : (s.setFlt x).sched = s.sched := rfl
@[simp] theorem State.setFlt_answers (x : Filters) : (s.setFlt x).answers = s.answers := rfl
@[simp] theorem State.setFlt_collab (x : Filters) : (s.setFlt x).collab = s.collab := rfl
@[simp] theorem State.setFlt_busTx (x : Filters) : (s.setFlt x).busTx = s.busTx := rfl

@[simp] theorem State.setNtf_mc (x : Notify) : (s.setNtf x).mc = s.mc := rfl
@[simp] theorem State.setNtf_hpt (x : Notify) : (s.setNtf x).hpt = s.hpt := rfl
@[simp] theorem State.setNtf_cfg (x : Notify) : (s.setNtf x).cfg = s.cfg := rfl
@[simp] theorem State.setNtf_mb (x : Notify) : (s.setNtf x).mb = s.mb := rfl
@[simp] theorem State.setNtf_mf (x : Notify) : (s.setNtf x).mf = s.mf := rfl
@[simp] theorem State.setNtf_txq (x : Notify) : (s.setNtf x).txq = s.txq := rfl
@[simp] theorem State.setNtf_fifo (x : Notify) : (s.setNtf x).fifo = s.fifo := rfl
@[simp] theorem State.setNtf_flt (x : Notify) : (s.setNtf x).flt = s.flt := rfl
@[simp] theorem State.setNtf_ntf (x : Notify) : (s.setNtf x).ntf = x := rfl
@[simp] theorem State.setNtf_err (x : Notify) : (s.setNtf x).err = s.err := rfl
@[simp] theorem State.setNtf_vl (x : Notify) : (s.setNtf x).vl = s.vl := rfl
@[simp] theorem State.setNtf_par (x : Notify) : (s.setNtf x).par = s.par := rfl
@[simp] theorem State.setNtf_port (x : Notify) : (s.setNtf x).port = s.port := rfl
@[simp] theorem State.setNtf_sched (x : Notify) : (s.setNtf x).sched = s.sched := rfl
@[simp] theorem State.setNtf_answers (x : Notify) : (s.setNtf x).answers = s.answers := rfl
@[simp] theorem State.setNtf_collab (x : Notify) : (s.setNtf x).collab = s.collab := rfl
@[simp] theorem State.setNtf_busTx (x : Notify) : (s.setNtf x).busTx = s.busTx := rfl

@[simp] theorem State.setErr_mc (x : ErrStatus) : (s.setErr x).mc = s.mc := rfl
@[simp] theorem State.setErr_hpt (x : ErrStatus) : (s.setErr x).hpt = s.hpt := rfl
@[simp] theorem State.setErr_cfg (x : ErrStatus) : (s.setErr x).cfg = s.cfg := rfl
@[simp] theorem State.setErr_mb (x : ErrStatus) : (s.setErr x).mb = s.mb := rfl
@[simp] theorem State.setErr_mf (x : ErrStatus) : (s.setErr x).mf = s.mf := rfl
@[simp] theorem State.setErr_txq (x : ErrStatus) : (s.setErr x).txq = s.txq := rfl
@[simp] theorem State.setErr_fifo (x : ErrStatus) : (s.setErr x).fifo = s.fifo := rfl
@[simp] theorem State.setErr_flt (x : ErrStatus) : (s.setErr x).flt = s.flt := rfl
@[simp] theorem State.setErr_ntf (x : ErrStatus) : (s.setErr x).ntf = s.ntf := rfl
@[simp] theorem State.setErr_err (x : ErrStatus) : (s.setErr x).err = x := rfl
@[simp] theorem State.setErr_vl (x : ErrStatus) : (s.setErr x).vl = s.vl := rfl
@[simp] theorem State.setErr_par (x : ErrStatus) : (s.setErr x).par = s.par := rfl
@[simp] theorem State.setErr_port (x : ErrStatus) : (s.setErr x).port = s.port := rfl
@[simp] theorem State.setErr_sched (x : ErrStatus) : (s.setErr x).sched = s.sched := rfl
@[simp] theorem State.setErr_answers (x : ErrStatus) : (s.setErr x).answers = s.answers := rfl
@[simp] theorem State.setErr_collab (x : ErrStatus) : (s.setErr x).collab = s.collab := rfl
@[simp] theorem State.setErr_busTx (x : ErrStatus) : (s.setErr x).busTx = s.busTx := rfl

@[simp] theorem State.setVl_mc (v : VecIdx) (x : VLatch) : (s.setVl v x).mc = s.mc := rfl
@[simp] theorem State.setVl_hpt (v : VecIdx) (x : VLatch) : (s.setVl v x).hpt = s.hpt := rfl
@[simp] theorem State.setVl_cfg (v : VecIdx) (x : VLatch) : (s.setVl v x).cfg = s.cfg := rfl
@[simp] theorem State.setVl_mb (v : VecIdx) (x : VLatch) : (s.setVl v x).mb = s.mb := rfl
@[simp] theorem State.setVl_mf (v : VecIdx) (x : VLatch) : (s.setVl v x).mf = s.mf := rfl
@[simp] theorem State.setVl_txq (v : VecIdx) (x : VLatch) : (s.setVl v x).txq = s.txq := rfl
@[simp] theorem State.setVl_fifo (v : VecIdx) (x : VLatch) : (s.setVl v x).fifo = s.fifo := rfl
@[simp] theorem State.setVl_flt (v : VecIdx) (x : VLatch) : (s.setVl v x).flt = s.flt := rfl
@[simp] theorem State.setVl_ntf (v : VecIdx) (x : VLatch) : (s.setVl v x).ntf = s.ntf := rfl
@[simp] theorem State.setVl_err (v : VecIdx) (x : VLatch) : (s.setVl v x).err = s.err := rfl
@[simp] theorem State.setVl_vl (v : VecIdx) (x : VLatch) : (s.setVl v x).vl = s.vl.set v.val x := rfl
@[simp] theorem State.setVl_par (v : VecIdx) (x : VLatch) : (s.setVl v x).par = s.par := rfl
@[simp] theorem State.setVl_port (v : VecIdx) (x : VLatch) : (s.setVl v x).port = s.port := rfl
@[simp] theorem State.setVl_sched (v : VecIdx) (x : VLatch) : (s.setVl v x).sched = s.sched := rfl
@[simp] theorem State.setVl_answers (v : VecIdx) (x : VLatch) : (s.setVl v x).answers = s.answers := rfl
@[simp] theorem State.setVl_collab (v : VecIdx) (x : VLatch) : (s.setVl v x).collab = s.collab := rfl
@[simp] theorem State.setVl_busTx (v : VecIdx) (x : VLatch) : (s.setVl v x).busTx = s.busTx := rfl

@[simp] theorem State.setPort_mc (ws : List Word) : (s.setPort ws).mc = s.mc := rfl
@[simp] theorem State.setPort_hpt (ws : List Word) : (s.setPort ws).hpt = s.hpt := rfl
@[simp] theorem State.setPort_cfg (ws : List Word) : (s.setPort ws).cfg = s.cfg := rfl
@[simp] theorem State.setPort_mb (ws : List Word) : (s.setPort ws).mb = s.mb := rfl
@[simp] theorem State.setPort_mf (ws : List Word) : (s.setPort ws).mf = s.mf := rfl
@[simp] theorem State.setPort_txq (ws : List Word) : (s.setPort ws).txq = s.txq := rfl
@[simp] theorem State.setPort_fifo (ws : List Word) : (s.setPort ws).fifo = s.fifo := rfl
@[simp] theorem State.setPort_flt (ws : List Word) : (s.setPort ws).flt = s.flt := rfl
@[simp] theorem State.setPort_ntf (ws : List Word) : (s.setPort ws).ntf = s.ntf := rfl
@[simp] theorem State.setPort_err (ws : List Word) : (s.setPort ws).err = s.err := rfl
@[simp] theorem State.setPort_vl (ws : List Word) : (s.setPort ws).vl = s.vl := rfl
@[simp] theorem State.setPort_par (ws : List Word) : (s.setPort ws).par = s.par := rfl
@[simp] theorem State.setPort_port (ws : List Word) : (s.setPort ws).port = ws := rfl
@[simp] theorem State.setPort_sched (ws : List Word) : (s.setPort ws).sched = s.sched := rfl
@[simp] theorem State.setPort_answers (ws : List Word) : (s.setPort ws).answers = s.answers := rfl
@[simp] theorem State.setPort_collab (ws : List Word) : (s.setPort ws).collab = s.collab := rfl
@[simp] theorem State.setPort_busTx (ws : List Word) : (s.setPort ws).busTx = s.busTx := rfl

@[simp] theorem State.setSched_mc (ts : List Turn) : (s.setSched ts).mc = s.mc := rfl
@[simp] theorem State.setSched_hpt (ts : List Turn) : (s.setSched ts).hpt = s.hpt := rfl
@[simp] theorem State.setSched_cfg (ts : List Turn) : (s.setSched ts).cfg = s.cfg := rfl
@[simp] theorem State.setSched_mb (ts : List Turn) : (s.setSched ts).mb = s.mb := rfl
@[simp] theorem State.setSched_mf (ts : List Turn) : (s.setSched ts).mf = s.mf := rfl
@[simp] theorem State.setSched_txq (ts : List Turn) : (s.setSched ts).txq = s.txq := rfl
@[simp] theorem State.setSched_fifo (ts : List Turn) : (s.setSched ts).fifo = s.fifo := rfl
@[simp] theorem State.setSched_flt (ts : List Turn) : (s.setSched ts).flt = s.flt := rfl
@[simp] theorem State.setSched_ntf (ts : List Turn) : (s.setSched ts).ntf = s.ntf := rfl
@[simp] theorem State.setSched_err (ts : List Turn) : (s.setSched ts).err = s.err := rfl
@[simp] theorem State.setSched_vl (ts : List Turn) : (s.setSched ts).vl = s.vl := rfl
@[simp] theorem State.setSched_par (ts : List Turn) : (s.setSched ts).par = s.par := rfl
@[simp] theorem State.setSched_port (ts : List Turn) : (s.setSched ts).port = s.port := rfl
@[simp] theorem State.setSched_sched (ts : List Turn) : (s.setSched ts).sched = ts := rfl
@[simp] theorem State.setSched_answers (ts : List Turn) : (s.setSched ts).answers = s.answers := rfl
@[simp] theorem State.setSched_collab (ts : List Turn) : (s.setSched ts).collab = s.collab := rfl
@[simp] theorem State.setSched_busTx (ts : List Turn) : (s.setSched ts).busTx = s.busTx := rfl

@[simp] theorem State.answer_mc (st : Status) (ws : List Word) : (s.answer st ws).mc = s.mc := rfl
@[simp] theorem State.answer_hpt (st : Status) (ws : List Word) : (s.answer st ws).hpt = s.hpt := rfl
@[simp] theorem State.answer_cfg (st : Status) (ws : List Word) : (s.answer st ws).cfg = s.cfg := rfl
@[simp] theorem State.answer_mb (st : Status) (ws : List Word) : (s.answer st ws).mb = s.mb := rfl
@[simp] theorem State.answer_mf (st : Status) (ws : List Word) : (s.answer st ws).mf = s.mf := rfl
@[simp] theorem State.answer_txq (st : Status) (ws : List Word) : (s.answer st ws).txq = s.txq := rfl
@[simp] theorem State.answer_fifo (st : Status) (ws : List Word) : (s.answer st ws).fifo = s.fifo := rfl
@[simp] theorem State.answer_flt (st : Status) (ws : List Word) : (s.answer st ws).flt = s.flt := rfl
@[simp] theorem State.answer_ntf (st : Status) (ws : List Word) : (s.answer st ws).ntf = s.ntf := rfl
@[simp] theorem State.answer_err (st : Status) (ws : List Word) : (s.answer st ws).err = s.err := rfl
@[simp] theorem State.answer_vl (st : Status) (ws : List Word) : (s.answer st ws).vl = s.vl := rfl
@[simp] theorem State.answer_par (st : Status) (ws : List Word) : (s.answer st ws).par = s.par := rfl
@[simp] theorem State.answer_port (st : Status) (ws : List Word) : (s.answer st ws).port = s.port := rfl
@[simp] theorem State.answer_sched (st : Status) (ws : List Word) : (s.answer st ws).sched = s.sched := rfl
@[simp] theorem State.answer_answers (st : Status) (ws : List Word) : (s.answer st ws).answers = s.answers ++ [⟨st, ws⟩] := rfl
@[simp] theorem State.answer_collab (st : Status) (ws : List Word) : (s.answer st ws).collab = s.collab := rfl
@[simp] theorem State.answer_busTx (st : Status) (ws : List Word) : (s.answer st ws).busTx = s.busTx := rfl

@[simp] theorem State.emitCollab_mc (rs : List CollabReq) : (s.emitCollab rs).mc = s.mc := rfl
@[simp] theorem State.emitCollab_hpt (rs : List CollabReq) : (s.emitCollab rs).hpt = s.hpt := rfl
@[simp] theorem State.emitCollab_cfg (rs : List CollabReq) : (s.emitCollab rs).cfg = s.cfg := rfl
@[simp] theorem State.emitCollab_mb (rs : List CollabReq) : (s.emitCollab rs).mb = s.mb := rfl
@[simp] theorem State.emitCollab_mf (rs : List CollabReq) : (s.emitCollab rs).mf = s.mf := rfl
@[simp] theorem State.emitCollab_txq (rs : List CollabReq) : (s.emitCollab rs).txq = s.txq := rfl
@[simp] theorem State.emitCollab_fifo (rs : List CollabReq) : (s.emitCollab rs).fifo = s.fifo := rfl
@[simp] theorem State.emitCollab_flt (rs : List CollabReq) : (s.emitCollab rs).flt = s.flt := rfl
@[simp] theorem State.emitCollab_ntf (rs : List CollabReq) : (s.emitCollab rs).ntf = s.ntf := rfl
@[simp] theorem State.emitCollab_err (rs : List CollabReq) : (s.emitCollab rs).err = s.err := rfl
@[simp] theorem State.emitCollab_vl (rs : List CollabReq) : (s.emitCollab rs).vl = s.vl := rfl
@[simp] theorem State.emitCollab_par (rs : List CollabReq) : (s.emitCollab rs).par = s.par := rfl
@[simp] theorem State.emitCollab_port (rs : List CollabReq) : (s.emitCollab rs).port = s.port := rfl
@[simp] theorem State.emitCollab_sched (rs : List CollabReq) : (s.emitCollab rs).sched = s.sched := rfl
@[simp] theorem State.emitCollab_answers (rs : List CollabReq) : (s.emitCollab rs).answers = s.answers := rfl
@[simp] theorem State.emitCollab_collab (rs : List CollabReq) : (s.emitCollab rs).collab = s.collab ++ rs := rfl
@[simp] theorem State.emitCollab_busTx (rs : List CollabReq) : (s.emitCollab rs).busTx = s.busTx := rfl

@[simp] theorem State.emitBus_mc (x : BusFrame) : (s.emitBus x).mc = s.mc := rfl
@[simp] theorem State.emitBus_hpt (x : BusFrame) : (s.emitBus x).hpt = s.hpt := rfl
@[simp] theorem State.emitBus_cfg (x : BusFrame) : (s.emitBus x).cfg = s.cfg := rfl
@[simp] theorem State.emitBus_mb (x : BusFrame) : (s.emitBus x).mb = s.mb := rfl
@[simp] theorem State.emitBus_mf (x : BusFrame) : (s.emitBus x).mf = s.mf := rfl
@[simp] theorem State.emitBus_txq (x : BusFrame) : (s.emitBus x).txq = s.txq := rfl
@[simp] theorem State.emitBus_fifo (x : BusFrame) : (s.emitBus x).fifo = s.fifo := rfl
@[simp] theorem State.emitBus_flt (x : BusFrame) : (s.emitBus x).flt = s.flt := rfl
@[simp] theorem State.emitBus_ntf (x : BusFrame) : (s.emitBus x).ntf = s.ntf := rfl
@[simp] theorem State.emitBus_err (x : BusFrame) : (s.emitBus x).err = s.err := rfl
@[simp] theorem State.emitBus_vl (x : BusFrame) : (s.emitBus x).vl = s.vl := rfl
@[simp] theorem State.emitBus_par (x : BusFrame) : (s.emitBus x).par = s.par := rfl
@[simp] theorem State.emitBus_port (x : BusFrame) : (s.emitBus x).port = s.port := rfl
@[simp] theorem State.emitBus_sched (x : BusFrame) : (s.emitBus x).sched = s.sched := rfl
@[simp] theorem State.emitBus_answers (x : BusFrame) : (s.emitBus x).answers = s.answers := rfl
@[simp] theorem State.emitBus_collab (x : BusFrame) : (s.emitBus x).collab = s.collab := rfl
@[simp] theorem State.emitBus_busTx (x : BusFrame) : (s.emitBus x).busTx = s.busTx ++ [x] := rfl

/-- Reading `mb` at `j` after writing it at `i`. -/
theorem State.setMb_mb_get (i j : MbIdx) (x : Mailbox) : (s.setMb i x).mb[j] = if i = j then x else s.mb[j] := by
  simp [Vector.getElem_set, Fin.ext_iff]

/-- Reading `mf` at `j` after writing it at `i`. -/
theorem State.setMf_mf_get (i j : MbIdx) (x : MbFlags) : (s.setMf i x).mf[j] = if i = j then x else s.mf[j] := by
  simp [Vector.getElem_set, Fin.ext_iff]

/-- Reading `fifo` at `j` after writing it at `i`. -/
theorem State.setFifo_fifo_get (i j : FifoIdx) (x : Fifo) : (s.setFifo i x).fifo[j] = if i = j then x else s.fifo[j] := by
  simp [Vector.getElem_set, Fin.ext_iff]

/-- Reading `vl` at `j` after writing it at `i`. -/
theorem State.setVl_vl_get (i j : VecIdx) (x : VLatch) : (s.setVl i x).vl[j] = if i = j then x else s.vl[j] := by
  simp [Vector.getElem_set, Fin.ext_iff]

end Sys2Proof.Machine
end

