-- ==== Sys2Proof/Laws/Ops.lean ====
section
/-! SUPPORT. For each shared operation, once, everything it can do. Later proofs cite these and do not unfold
the operation. -/

namespace Sys2Proof.Machine

/-! The transmit arbiter (R160, R163). -/

theorem anyEmpty_iff (s : State) : anyEmpty s = true ↔ ∃ m : MbIdx, s.mf[m].tme = true := by
  simp [anyEmpty, Fin.exists_fin_succ, or_assoc]

theorem anyEmpty_eq_false_iff (s : State) : anyEmpty s = false ↔ ∀ m : MbIdx, s.mf[m].tme = false := by
  simp [anyEmpty, Fin.forall_fin_succ, and_assoc]

/-- With some mailbox empty, the code is the least empty mailbox. -/
theorem code_of_anyEmpty (s : State) (h : anyEmpty s = true) :
    s.mf[code s].tme = true ∧ ∀ m : MbIdx, m < code s → s.mf[m].tme = false := by
  unfold code
  unfold anyEmpty at h
  split
  · exact ⟨by assumption, fun m hm => absurd hm (Fin.not_lt_zero m)⟩
  · rename_i h0
    have h0 : s.mf[(0 : MbIdx)].tme = false := by simpa using h0
    split
    · refine ⟨by assumption, fun m hm => ?_⟩
      obtain rfl : m = 0 := Fin.ext (Nat.lt_one_iff.1 hm)
      exact h0
    · rename_i h1
      have h1 : s.mf[(1 : MbIdx)].tme = false := by simpa using h1
      split
      · refine ⟨by assumption, fun m hm => ?_⟩
        have hm : m.val < 2 := hm
        obtain rfl | rfl : m = 0 ∨ m = 1 := by
          rcases Nat.lt_succ_iff_lt_or_eq.1 hm with h | h
          · exact .inl (Fin.ext (Nat.lt_one_iff.1 h))
          · exact .inr (Fin.ext h)
        · exact h0
        · exact h1
      · simp_all

/-- With no mailbox empty, the code is the last of the priority order. -/
theorem code_of_not_anyEmpty (s : State) (h : anyEmpty s = false) :
    code s = (txPriority s).getLast?.getD Config.codeUnreachable := by
  have h' := (anyEmpty_eq_false_iff s).1 h
  have h0 : s.mf[0].tme = false := h' 0
  have h1 : s.mf[1].tme = false := h' 1
  have h2 : s.mf[2].tme = false := h' 2
  simp [code, h0, h1, h2]

theorem insertByKey_perm (key : MbIdx → Nat) (a : MbIdx) (l : List MbIdx) :
    (insertByKey key a l).Perm (a :: l) := by
  induction l with
  | nil => exact List.Perm.refl _
  | cons b l ih =>
    unfold insertByKey
    split
    · exact List.Perm.refl _
    · exact (ih.cons b).trans (List.Perm.swap a b l)

/-- Sorting keeps the elements. -/
theorem sortByKey_perm (key : MbIdx → Nat) (l : List MbIdx) : (sortByKey key l).Perm l := by
  induction l with
  | nil => exact List.Perm.refl _
  | cons a l ih => exact (insertByKey_perm key a _).trans (ih.cons a)

theorem keyLe_iff (key : MbIdx → Nat) (a b : MbIdx) :
    keyLe key a b = true ↔ key a < key b ∨ (key a = key b ∧ a.val ≤ b.val) := by
  simp [keyLe]

theorem insertByKey_sorted (key : MbIdx → Nat) (a : MbIdx) (l : List MbIdx)
    (h : l.Pairwise fun x y => keyLe key x y = true) :
    (insertByKey key a l).Pairwise fun x y => keyLe key x y = true := by
  induction l with
  | nil => simp [insertByKey]
  | cons b l ih =>
    obtain ⟨hb, hl⟩ := List.pairwise_cons.1 h
    unfold insertByKey
    split
    · rename_i hab
      refine List.pairwise_cons.2 ⟨fun y hy => ?_, h⟩
      rcases List.mem_cons.1 hy with rfl | hy
      · exact hab
      · have := hb y hy
        rw [keyLe_iff] at *
        omega
    · rename_i hab
      refine List.pairwise_cons.2 ⟨fun y hy => ?_, ih hl⟩
      rcases List.mem_cons.1 ((insertByKey_perm key a l).mem_iff.1 hy) with rfl | hy
      · rw [keyLe_iff] at *
        omega
      · exact hb y hy

/-- Sorting sorts: every element comes no later than those after it. -/
theorem sortByKey_sorted (key : MbIdx → Nat) (l : List MbIdx) :
    (sortByKey key l).Pairwise fun x y => keyLe key x y = true := by
  induction l with
  | nil => exact List.Pairwise.nil
  | cons a l ih => exact insertByKey_sorted key a _ ih

/-- The priority order holds exactly the pending mailboxes. -/
theorem txPriority_perm (s : State) : (txPriority s).Perm s.txq := by
  unfold txPriority prioOrder
  split
  · split
    · exact sortByKey_perm _ _
    · exact List.Perm.refl _
  · exact sortByKey_perm _ _

/-! The matcher (R135 to R139). -/

theorem mem_allBanks (b : BankIdx) : b ∈ allBanks := by
  revert b; decide

theorem mem_hitList (x : Filters) (fr : Frame) (h : Hit) : h ∈ hitList x fr ↔ Accepts x fr h.bank h.j := by
  obtain ⟨b, j⟩ := h
  simp only [hitList, List.mem_flatMap, Accepts]
  constructor
  · rintro ⟨b', -, hb⟩
    split at hb
    · obtain ⟨e, he, heq⟩ := List.mem_map.1 hb
      obtain ⟨rfl, rfl⟩ : b' = b ∧ e.j = j := by simpa using heq
      obtain ⟨h1, h2⟩ := List.mem_filter.1 he
      exact ⟨by assumption, e, h1, rfl, h2⟩
    · cases hb
  · rintro ⟨ha, e, he, rfl, hh⟩
    refine ⟨b, mem_allBanks b, ?_⟩
    rw [if_pos ha]
    exact List.mem_map.2 ⟨e, List.mem_filter.2 ⟨he, hh⟩, rfl⟩

/-- A filter entry's position is below 4. -/
theorem entry_position_lt (x : Filters) (b : BankIdx) (e : FilterEntry) (h : e ∈ entries x b) : e.j < 4 := by
  unfold entries at h
  simp only at h
  split at h <;> split at h <;> simp at h
  · rcases h with rfl | rfl <;> simp
  · subst h; simp
  · rcases h with rfl | rfl | rfl | rfl <;> simp
  · rcases h with rfl | rfl <;> simp

/-- The order of hits is the order of their keys. -/
theorem hitBefore_iff (x : Filters) (h g : Hit) (hj : h.j < 4) (gj : g.j < 4) :
    hitBefore x h g = true ↔ hitKey x h.bank h.j < hitKey x g.bank g.j := by
  have hb := h.bank.isLt
  have gb := g.bank.isLt
  have key (b : BankIdx) (j : Nat) : hitKey x b j = ((scaleRank x b * 2 + listRank x b) * 14 + b.val) * 4 + j := rfl
  have r1 (b : BankIdx) : scaleRank x b ≤ 1 := by unfold scaleRank; split <;> omega
  have r2 (b : BankIdx) : listRank x b ≤ 1 := by unfold listRank; split <;> omega
  have := r1 h.bank
  have := r1 g.bank
  have := r2 h.bank
  have := r2 g.bank
  rw [key, key]
  unfold hitBefore
  split
  · simp only [decide_eq_true_eq]
    omega
  · split
    · simp only [decide_eq_true_eq]
      omega
    · split
      · simp only [decide_eq_true_eq]
        omega
      · simp only [decide_eq_true_eq]
        omega

theorem leastHit_eq_none (x : Filters) (l : List Hit) : leastHit x l = none ↔ l = [] := by
  cases l with
  | nil => simp [leastHit]
  | cons h t =>
    simp only [leastHit, reduceCtorEq, iff_false]
    split
    · simp
    · split <;> simp

/-- The least hit is a hit, and no hit has a smaller key. -/
theorem leastHit_spec (x : Filters) (l : List Hit) (hl : ∀ h ∈ l, h.j < 4) (g : Hit)
    (hg : leastHit x l = some g) :
    g ∈ l ∧ ∀ h ∈ l, hitKey x g.bank g.j ≤ hitKey x h.bank h.j := by
  induction l generalizing g with
  | nil => simp [leastHit] at hg
  | cons a t ih =>
    have ha := hl a List.mem_cons_self
    have ht := fun h hh => hl h (List.mem_cons_of_mem a hh)
    simp only [leastHit] at hg
    split at hg
    · rename_i hn
      obtain rfl : a = g := by simpa using hg
      obtain rfl := (leastHit_eq_none x t).1 hn
      simp
    · rename_i k hk
      obtain ⟨hkt, hmin⟩ := ih ht k hk
      have hk4 := ht k hkt
      split at hg
      · rename_i hb
        obtain rfl : k = g := by simpa using hg
        refine ⟨List.mem_cons_of_mem a hkt, fun h hh => ?_⟩
        rcases List.mem_cons.1 hh with rfl | hh
        · exact le_of_lt ((hitBefore_iff x k _ hk4 ha).1 hb)
        · exact hmin h hh
      · rename_i hb
        obtain rfl : a = g := by simpa using hg
        refine ⟨List.mem_cons_self, fun h hh => ?_⟩
        rcases List.mem_cons.1 hh with rfl | hh
        · exact le_refl _
        · have : ¬ hitKey x k.bank k.j < hitKey x a.bank a.j := fun hc => hb ((hitBefore_iff x k a hk4 ha).2 hc)
          have := hmin h hh
          omega

/-- What the gate can do: nothing, or one enqueue into the FIFO the matcher names. -/
theorem deliver_cases (fr : Frame) (ts : BitVec 16) (s : State) :
    deliver fr ts s = s ∨
      ∃ f fmi, s.flt.finit = false ∧ matchFrame s.flt fr = some (f, fmi) ∧
        deliver fr ts s = s.setFifo f (pushSlot s.cfg.rflm s.fifo[f] ⟨fr, fmi, ts⟩) := by
  unfold deliver
  split
  · exact .inl rfl
  · rename_i hf
    split
    · exact .inl rfl
    · rename_i f fmi hm
      exact .inr ⟨f, fmi, by simpa using hf, hm, rfl⟩

/-! The FIFOs (R190, R191). -/

/-- An arrival below depth 3: stored behind the others, counted, `full` at 3. -/
theorem pushSlot_of_lt (rflm : Bool) (x : Fifo) (y : Slot) (h : x.fmp.toNat < 3) :
    pushSlot rflm x y =
      { x with
        slot := x.slot.set (slotAt x.head x.fmp.toNat).val y
        fmp := x.fmp + 1
        full := x.full || x.fmp.toNat + 1 == 3 } := by
  simp [pushSlot, h]

/-- An arrival at depth 3 of a locked FIFO: the overflow flag, nothing stored. -/
theorem pushSlot_locked (x : Fifo) (y : Slot) (h : x.fmp.toNat = 3) :
    pushSlot true x y = { x with fovr := true } := by
  simp [pushSlot, h]

/-- An arrival at depth 3 of an unlocked FIFO: the overflow flag, the newest overwritten. -/
theorem pushSlot_unlocked (x : Fifo) (y : Slot) (h : x.fmp.toNat = 3) :
    pushSlot false x y = { x with fovr := true, slot := x.slot.set (slotAt x.head 2).val y } := by
  simp [pushSlot, h]

@[simp] theorem pushSlot_head (rflm : Bool) (x : Fifo) (y : Slot) : (pushSlot rflm x y).head = x.head := by
  unfold pushSlot
  split
  · rfl
  · split <;> rfl

/-! Vector services (R232 to R239). -/

/-- The chain finds nothing exactly when no link's predicate holds. -/
theorem chain_eq_none (l : List Link) : chain l = none ↔ ∀ x ∈ l, x.pred = false := by
  induction l with
  | nil => simp [chain]
  | cons a l ih =>
    unfold chain
    split
    · simp_all
    · simp_all

/-- What the chain finds is its first link whose predicate holds. -/
theorem chain_eq_some (l : List Link) (a : Link) (h : chain l = some a) :
    a.pred = true ∧ ∃ l₁ l₂, l = l₁ ++ a :: l₂ ∧ ∀ x ∈ l₁, x.pred = false := by
  induction l with
  | nil => simp [chain] at h
  | cons b l ih =>
    unfold chain at h
    split at h
    · obtain rfl : b = a := by simpa using h
      exact ⟨by assumption, [], l, rfl, by simp⟩
    · rename_i hb
      obtain ⟨hp, l₁, l₂, rfl, hl⟩ := ih h
      refine ⟨hp, b :: l₁, l₂, rfl, fun x hx => ?_⟩
      rcases List.mem_cons.1 hx with rfl | hx
      · simpa using hb
      · exact hl x hx

/-- What an entry can do: answer two words and latch, and copy the error code exactly for kind 18. -/
theorem vectorEntry_cases (v : VecIdx) (links : List Link) (s : State) :
    (chain links = none ∧ vectorEntry v links s = .next ((s.setVl v ⟨true, .none⟩).answer .ok [0, 0])) ∨
      ∃ l, chain links = some l ∧
        vectorEntry v links s =
          .next
            (((if l.kind = 18 then s.setErr { s.err with lecSnap := s.err.lec } else s).setVl v ⟨true, l.act⟩).answer
              .ok
              [vectorWord l.kind true true (hasCallback s l.kind),
                if hasCallback s l.kind then s.ntf.cb[l.kind] else 0]) := by
  unfold vectorEntry
  split
  · exact .inl ⟨by assumption, rfl⟩
  · rename_i l hl
    exact .inr ⟨l, hl, rfl⟩

/-- A latched clear touches only mailbox flags, FIFO flags or error flags. -/
theorem clearFlag_frame (a : ClearAct) (s : State) :
    clearFlag a s = { s with mf := (clearFlag a s).mf, fifo := (clearFlag a s).fifo, err := (clearFlag a s).err } := by
  cases a <;> rfl

/-! Turns. -/

theorem nextTurn_nil (s : State) (h : s.sched = []) : nextTurn s = (.host, s) := by
  simp [nextTurn, h]

theorem nextTurn_cons (s : State) (t : Turn) (ts : List Turn) (h : s.sched = t :: ts) :
    nextTurn s = (t, s.setSched ts) := by
  simp [nextTurn, h]

/-- A step in which the host port moves. -/
theorem step_of_hostMoves (s u : State) (h : HostMoves s u) : step s = hostTurn u := by
  rcases h with ⟨h, rfl⟩ | ⟨r, h, rfl⟩
  · simp [step, stepOnce, nextTurn, h, takeTurn]
  · simp [step, stepOnce, nextTurn, h, takeTurn, State.setSched]

/-- A step in which an agent moves. -/
theorem step_of_agentMoves (a : AgentStep) (s u : State) (h : AgentMoves a s u) : step s = .next (agentTurn a u) := by
  obtain ⟨r, h, rfl⟩ := h
  simp [step, stepOnce, nextTurn, h, takeTurn, State.setSched]

/-! Infinite schedules (R7, R112). -/

@[simp] theorem stateAt_zero (sch : Schedule) (s : State) : stateAt sch s 0 = s := rfl

theorem stateAt_succ (sch : Schedule) (s : State) (k : Nat) :
    stateAt sch s (k + 1) = stateAfter (sch k) (stateAt sch s k) := rfl

/-- The state after a turn is the one the machine's step gives. -/
theorem stateAfter_of_step (t : Turn) (s u : State) (h : step (s.setSched [t]) = .next u) : stateAfter t s = u := by
  simp [stateAfter, h]

theorem stateAfter_agent (a : AgentStep) (s : State) : stateAfter (.agent a) s = agentTurn a (s.setSched []) := rfl

theorem stateAfter_reset (d : ResetDraw) (s : State) : stateAfter (.reset d) s = resetTurn d (s.setSched []) := rfl

/-- The host's turn while INIT waits for `slak` = 0. -/
theorem stateAfter_host_sleepWait (s : State) (h : s.hpt.hp = .initWaitSleep) :
    stateAfter .host s = resumeAtSleepWait (s.setSched []) := by
  apply stateAfter_of_step
  simp [step, stepOnce, nextTurn, takeTurn, hostTurn, h, State.setSched]

/-- The host's turn while INIT waits for `inak` = 1. -/
theorem stateAfter_host_initWait (s : State) (h : s.hpt.hp = .initWaitInit) :
    stateAfter .host s = resumeAtInitWait (s.setSched []) := by
  apply stateAfter_of_step
  simp [step, stepOnce, nextTurn, takeTurn, hostTurn, h, State.setSched]

end Sys2Proof.Machine
end

