-- ==== Sys2Proof/Tests/Slice0.lean ====
section
/-! SUPPORT. Tests: an ill-formed term for every check of WellFormed.lean, words written out from the spec's
encodings, one-step checks whose expected values stand in spec 95_test_vectors.md, and for every obligation with
hypotheses a concrete state that meets them. -/

namespace Sys2Proof.Tests

open Sys2Proof Sys2Proof.Machine

/-! Small states. -/

/-- Normal mode, filters out of their configuration state. -/
def running : State :=
  { State.reset with mc := ⟨false, false, false, false⟩, flt := { State.reset.flt with finit := false } }

/-- `running` in loopback with the source's filter in bank 0 (V5). -/
def looped : State :=
  { running with
    cfg := { running.cfg with lbkm := true }
    flt :=
      { running.flt with
        act := 1, fsc := 1, fr1 := running.flt.fr1.set 0 0x01230000, fr2 := running.flt.fr2.set 0 0x07FF0000 } }

/-- `running` with the three mailboxes pending, oldest request mailbox 0. -/
def allPending : State := { running with mf := Vector.replicate 3 ⟨false, false, false, false, false, false⟩, txq := [0, 1, 2] }

/-- A stored extended frame of two bytes with stale bytes behind them. -/
def storedSlot : Slot := ⟨⟨true, false, 0x7FF, 0x3FFFF, 2, #v[1, 2, 3, 4, 5, 6, 7, 8]⟩, 5, 0xBEEF⟩

/-- `running` with one frame in FIFO 0 and its pending kind enabled with a handle. -/
def received : State :=
  { running with
    fifo := running.fifo.set 0 ⟨1, false, false, 0, #v[storedSlot, storedSlot, storedSlot]⟩
    ntf := { running.ntf with en := 0x200, cb := running.ntf.cb.set 9 0x08002000 } }

/-- `running` with mailbox 1 completed with success. -/
def completed : State := { running with mf := running.mf.set 1 ⟨true, true, true, false, false, false⟩ }

/-- The multi-error flag with code 3, enabled. -/
def errored : State :=
  { running with
    err := { running.err with merr := true, lec := 3 }
    ntf := { running.ntf with en := 0x40000, errie := true, cb := running.ntf.cb.set 18 0x1000 } }

/-- The host has the next turn, with `ws` presented. -/
def hostNext (ws : List Word) (s : State) : State := { s with sched := [.host], port := ws }

/-- The agent step `a` is next. -/
def agentNext (a : AgentStep) (s : State) : State := { s with sched := [.agent a] }

/-- INIT suspended at its second wait, acknowledged, with loopback latched. -/
def initAcknowledged : State :=
  { State.reset with
    mc := ⟨false, false, true, true⟩
    hpt := { State.reset.hpt with hp := .initWaitInit, hpMode := 1, hpBaud := 3 } }

/-- INIT suspended at its second wait, not acknowledged. -/
def initWaiting : State := { initAcknowledged with mc := ⟨false, false, true, false⟩ }

/-- INIT suspended at its first wait. -/
def sleepWaiting : State :=
  { State.reset with mc := ⟨false, true, false, false⟩, hpt := { State.reset.hpt with hp := .initWaitSleep } }

/-- The last answer of an outcome. -/
def lastAnswer (r : Result) : Option Answer :=
  match r with
  | .next t => t.answers.getLast?
  | .fault _ => none
  | .refused _ => none

/-- The state of an outcome. -/
def stateOf (r : Result) : State :=
  match r with
  | .next t => t
  | .fault _ => State.reset
  | .refused _ => State.reset

/-! Well-formedness: one ill-formed term for each check (R101). -/

theorem test_wf_reserved_bits : (Instr.init false false 3 false false false false false false 1).wellFormed = false ∧
    (Instr.start 1).wellFormed = false ∧ (Instr.finitEnter 1).wellFormed = false ∧
    (Instr.finitExit 1).wellFormed = false ∧ (Instr.cfgFilter 0 false false false 1 0 0).wellFormed = false ∧
    (Instr.transmit false false 0 false 1 0 0 0).wellFormed = false ∧ (Instr.receive 0 1).wellFormed = false ∧
    (Instr.freeCount 1).wellFormed = false ∧ (Instr.mboxPending 0 1).wellFormed = false ∧
    (Instr.fifoCount 0 1).wellFormed = false ∧ (Instr.notifyEn 0 1 0).wellFormed = false ∧
    (Instr.notifyDis 0 1).wellFormed = false := by decide

theorem test_wf_reserved_bits_of_services : (Instr.vecTx 1).wellFormed = false ∧ (Instr.vecRx0 1).wellFormed = false ∧
    (Instr.vecRx1Sce 1).wellFormed = false ∧ (Instr.vecDone 0 1).wellFormed = false ∧
    (Instr.rdCfg 1).wellFormed = false ∧ (Instr.rdMsr 1).wellFormed = false ∧ (Instr.rdTsr 1).wellFormed = false ∧
    (Instr.rdRfr 0 1).wellFormed = false ∧ (Instr.rdEsr 1).wellFormed = false ∧
    (Instr.rdIer 1).wellFormed = false ∧ (Instr.rdFbank 0 1).wellFormed = false := by decide

theorem test_wf_baud_7 : (Instr.init false false 7 false false false false false false 0).wellFormed = false := by decide
theorem test_wf_bank_14 : (Instr.cfgFilter 14 false false false 0 0 0).wellFormed = false ∧
    (Instr.rdFbank 14 0).wellFormed = false := by decide
theorem test_wf_dlc_9 : (Instr.transmit false false 9 false 0 0 0 0).wellFormed = false := by decide
theorem test_wf_identifier : (Instr.transmit false false 8 false 0 0x800 0 0).wellFormed = false ∧
    (Instr.transmit true false 8 false 0 0x20000000 0 0).wellFormed = false ∧
    (Instr.transmit true false 8 false 0 0x1FFFFFFF 0 0).wellFormed = true := by decide
theorem test_wf_index_3 : (Instr.mboxPending 3 0).wellFormed = false := by decide
theorem test_wf_kind_19 : (Instr.notifyEn 19 0 0).wellFormed = false ∧ (Instr.notifyDis 19 0).wellFormed = false := by decide
theorem test_wf_vector_3 : (Instr.vecDone 3 0).wellFormed = false := by decide

/-! Decoding: a word of every operation, bit by bit from the formats of R82 to R90. -/

/-- R83: opcode 0x01; txfp, rflm, art, awum, abom, ttcm bits 10 to 5; baud bits 4:2; silm bit 1; lbkm bit 0. -/
theorem test_decode_init : decode [0b00000001_0000000000000_1_0_1_0_1_0_101_0_1] =
    .ok (.init true false 5 false true false true false true 0) [] := by decide
theorem test_decode_format_Z : decode [0x02000000] = .ok (.start 0) [] ∧ decode [0x03000000] = .ok (.finitEnter 0) [] ∧
    decode [0x04000000] = .ok (.finitExit 0) [] ∧ decode [0x08000000] = .ok (.freeCount 0) [] ∧
    decode [0x10000000] = .ok (.vecTx 0) [] ∧ decode [0x11000000] = .ok (.vecRx0 0) [] ∧
    decode [0x12800001] = .ok (.vecRx1Sce 0x800001) [] := by decide
theorem test_decode_reads : decode [0x20000000] = .ok (.rdCfg 0) [] ∧ decode [0x21000000] = .ok (.rdMsr 0) [] ∧
    decode [0x22000000] = .ok (.rdTsr 0) [] ∧ decode [0x23000001] = .ok (.rdRfr 1 0) [] ∧
    decode [0x24000000] = .ok (.rdEsr 0) [] ∧ decode [0x25000000] = .ok (.rdIer 0) [] ∧
    decode [0x2600000D] = .ok (.rdFbank 13 0) [] := by decide
/-- R84: ffa bit 6, fsc bit 5, fbm bit 4, bank bits 3:0; two operand words, then the next transaction. -/
theorem test_decode_cfgFilter : decode [0b00000101_00000000000000000_0_1_0_1101, 0x01230000, 0x07FF0000, 0x02000000] =
    .ok (.cfgFilter 13 false true false 0 0x01230000 0x07FF0000) [0x02000000] := by decide
/-- R85: tgt bit 6, dlc bits 5:2, rtr bit 1, ide bit 0; three operand words. -/
theorem test_decode_transmit : decode [0b00000110_00000000000000000_1_1000_0_1, 5, 6, 7] =
    .ok (.transmit true false 8 true 0 5 6 7) [] := by decide
theorem test_decode_selects : decode [0x07000001] = .ok (.receive 1 0) [] ∧
    decode [0x09000002] = .ok (.mboxPending 2 0) [] ∧ decode [0x0A000001] = .ok (.fifoCount 1 0) [] ∧
    decode [0x0B000012, 0x20] = .ok (.notifyEn 18 0 0x20) [] ∧ decode [0x0C000009] = .ok (.notifyDis 9 0) [] ∧
    decode [0x13000002] = .ok (.vecDone 2 0) [] := by decide
theorem test_decode_refuses : decode [0x00000000, 1] = .unknownOpcode [1] ∧ decode [0x0D000000] = .unknownOpcode [] ∧
    decode [0x27000000] = .unknownOpcode [] ∧ decode [0xFF000000] = .unknownOpcode [] ∧
    decode [0x06000020, 1, 2] = .incomplete ∧ decode [] = .empty := by decide
theorem test_table_word : decodeTableWord 32 0x06000020 = some (.transmit false false 8 false 0 0 0 0) ∧
    decodeTableWord 32 0x0D000000 = none := by decide

/-! One step each. The expected words are those of spec 95_test_vectors.md unless another rule is named. -/

/-- R110 P1 and the step's fetch: the sleep request is withdrawn and the port is suspended. -/
theorem test_init_phase_1 :
    (stateOf (step (State.reset.withFetchWord 32 0x0100000D))).hpt = ⟨.initWaitSleep, 1, 3, 0⟩ ∧
    (stateOf (step (State.reset.withFetchWord 32 0x0100000D))).mc = ⟨false, true, false, false⟩ := by decide
theorem test_init_refused : lastAnswer (exec (.init false false 7 false false false false false false 0) State.reset) =
    some ⟨.errRange, []⟩ := by decide
theorem test_start : (stateOf (exec (.start 0) initWaiting)).mc = ⟨false, false, false, false⟩ := by decide
theorem test_finit : (stateOf (exec (.finitExit 0) State.reset)).flt.finit = false ∧
    (stateOf (exec (.finitEnter 0) running)).flt.finit = true := by decide
/-- V5. -/
theorem test_cfgFilter : lastAnswer (exec (.rdFbank 0 0)
    (stateOf (exec (.cfgFilter 0 false true false 0 0x01230000 0x07FF0000) State.reset))) =
    some ⟨.ok, [0x00000005, 0x01230000, 0x07FF0000]⟩ := by decide
theorem test_cfgFilter_refused : lastAnswer (exec (.cfgFilter 0 false true false 0 0 0) running) =
    some ⟨.errState, []⟩ := by decide
/-- V3, V4: the first request goes to mailbox 0; lane 0 is the low byte. -/
theorem test_transmit : lastAnswer (exec (.transmit false false 8 false 0 0x123 0x04030201 0x08070605) running) =
      some ⟨.ok, [0]⟩ ∧
    (stateOf (exec (.transmit false false 8 false 0 0x123 0x04030201 0x08070605) running)).mb[0].data =
      #v[1, 2, 3, 4, 5, 6, 7, 8] := by decide
theorem test_transmit_full : lastAnswer (exec (.transmit false false 8 false 0 0x123 0 0) allPending) =
    some ⟨.failNoMailbox, []⟩ := by decide
/-- R98, R191, R192: id 1FFFFFFF, ts BEEF, fmi 5, dlc 2, ide 1; bytes 2 to 7 read 0. -/
theorem test_receive : lastAnswer (exec (.receive 0 0) received) =
    some ⟨.ok, [0x1FFFFFFF, 0xBEEF0509, 0x00000201, 0]⟩ := by decide
theorem test_receive_empty : lastAnswer (exec (.receive 1 0) received) = some ⟨.errEmpty, []⟩ := by decide
/-- V3. -/
theorem test_freeCount : lastAnswer (exec (.freeCount 0) running) = some ⟨.ok, [3]⟩ ∧
    lastAnswer (exec (.freeCount 0) allPending) = some ⟨.ok, [0]⟩ := by decide
theorem test_mboxPending : lastAnswer (exec (.mboxPending 1 0) completed) = some ⟨.ok, [1]⟩ ∧
    lastAnswer (exec (.mboxPending 0 0) completed) = some ⟨.ok, [0]⟩ := by decide
theorem test_fifoCount : lastAnswer (exec (.fifoCount 0 0) received) = some ⟨.ok, [1]⟩ ∧
    lastAnswer (exec (.fifoCount 1 0) received) = some ⟨.ok, [0]⟩ := by decide
/-- R230, R96: an error kind sets the umbrella too. -/
theorem test_notifyEn : (stateOf (exec (.notifyEn 18 0 0x20) running)).ntf.en = 0x40000 ∧
    (stateOf (exec (.notifyEn 18 0 0x20) running)).ntf.errie = true := by decide
/-- V7: the handle stays. -/
theorem test_notifyDis : (stateOf (exec (.notifyDis 9 0) received)).ntf.en = 0 ∧
    (stateOf (exec (.notifyDis 9 0) received)).ntf.cb[9] = 0x08002000 := by decide
/-- R99, R233: kind 3 (mailbox 1 done), ev, kv, mailbox 1, txok; kind 3 is not enabled, so no call. -/
theorem test_vecTx : lastAnswer (exec (.vecTx 0) completed) = some ⟨.ok, [0x00011303, 0]⟩ := by decide
/-- R99, R237: kind 9, ev, kv, call. -/
theorem test_vecRx0 : lastAnswer (exec (.vecRx0 0) received) = some ⟨.ok, [0x00000709, 0x08002000]⟩ := by decide
/-- R99, R238, R239: kind 18, and the code is copied. -/
theorem test_vecRx1Sce : lastAnswer (exec (.vecRx1Sce 0) errored) = some ⟨.ok, [0x00000712, 0x1000]⟩ ∧
    (stateOf (exec (.vecRx1Sce 0) errored)).err.lecSnap = 3 := by decide
theorem test_vecDone : (stateOf (exec (.vecDone 0 0) (stateOf (exec (.vecTx 0) completed)))).mf[1] =
    ⟨true, false, false, false, false, false⟩ := by decide
theorem test_vecDone_refused : lastAnswer (exec (.vecDone 1 0) running) = some ⟨.errProtocol, []⟩ := by decide
/-- V1. -/
theorem test_rdCfg : lastAnswer (exec (.rdCfg 0) looped) = some ⟨.ok, [1, 0]⟩ := by decide
/-- R43, R100. -/
theorem test_reads_after_reset : lastAnswer (exec (.rdMsr 0) State.reset) = some ⟨.ok, [0x1A]⟩ ∧
    lastAnswer (exec (.rdTsr 0) State.reset) = some ⟨.ok, [0x1C]⟩ ∧
    lastAnswer (exec (.rdRfr 0 0) State.reset) = some ⟨.ok, [0]⟩ ∧
    lastAnswer (exec (.rdIer 0) State.reset) = some ⟨.ok, [0]⟩ := by decide
/-- R100: mailbox 1: rqcp bit 16, txok bit 17; code 0; the three empty flags bits 4:2. -/
theorem test_rdTsr : lastAnswer (exec (.rdTsr 0) completed) = some ⟨.ok, [0x0003001C]⟩ := by decide
theorem test_rdRfr : lastAnswer (exec (.rdRfr 0 0) received) = some ⟨.ok, [1]⟩ := by decide
theorem test_rdEsr : lastAnswer (exec (.rdEsr 0) errored) = some ⟨.ok, [0x38]⟩ := by decide
theorem test_rdIer : lastAnswer (exec (.rdIer 0) errored) = some ⟨.ok, [0xC0000]⟩ := by decide

/-! Functions. -/

/-- R94, R141. -/
theorem test_image32 : image32 ⟨false, false, 0x123, 0, 8, Vector.replicate 8 0⟩ = 0x01230000 := by decide
/-- R93. -/
theorem test_filterPack : filterPack false 0x41250123 0x81260124 = (0x01240123, 0x81264125) := by decide
/-- V5. -/
theorem test_match : matchFrame looped.flt ⟨false, false, 0x123, 0, 8, Vector.replicate 8 0⟩ = some (0, 0) ∧
    matchFrame looped.flt ⟨false, false, 0x124, 0, 8, Vector.replicate 8 0⟩ = none := by decide
/-- R163: an extended frame loses to a standard one with the same upper part. -/
theorem test_arbKey : (arbKey ⟨false, true, 0x123, 0, 0, false, Vector.replicate 8 0⟩).toNat <
    (arbKey ⟨true, false, 0x123, 0, 0, false, Vector.replicate 8 0⟩).toNat := by decide

/-! Witnesses: for every obligation with hypotheses, a concrete state and operands that meet all of them; several
theorems or conjuncts where it has several clauses. -/

/-- The next step of a state the host moves in. -/
theorem hostMoves_hostNext (ws : List Word) (s : State) (h : s.sched = []) :
    HostMoves (hostNext ws s) { s with port := ws } :=
  .inr ⟨[], rfl, by cases s; cases h; rfl⟩

/-- The next step of a state an agent moves in. -/
theorem agentMoves_agentNext (a : AgentStep) (s : State) (h : s.sched = []) : AgentMoves a (agentNext a s) s :=
  ⟨[], rfl, by cases s; cases h; rfl⟩

theorem test_meets_EncodeWritesBackEveryDecoding :
    decode [0x0B000009, 0x08002000, 1] = .ok (.notifyEn 9 0 0x08002000) [1] := by decide

theorem test_meets_UnknownOpcodesConsumeOneWord :
    HostMoves (hostNext [0x0D000000, 1] running) { running with port := [0x0D000000, 1] } ∧
    running.hpt.hp = .idle ∧ decode [0x0D000000, 1] = .unknownOpcode [1] :=
  ⟨hostMoves_hostNext _ _ rfl, by decide, by decide⟩

theorem test_meets_IdentifierSplitAndJoin : idInRange false 0x7FF = true ∧ idInRange true 0x1FFFFFFF = true := by decide

theorem test_meets_StepRunsTheDecodedOperation :
    HostMoves (hostNext [0x13000000] running) { running with port := [0x13000000] } ∧ running.hpt.hp = .idle ∧
    decode [0x13000000] = .ok (.vecDone 0 0) [] :=
  ⟨hostMoves_hostNext _ _ rfl, by decide, by decide⟩

theorem test_meets_InitPhaseOneLatchesAndSuspends : (0 : BitVec 3) ≠ 7 ∧ (6 : BitVec 3) ≠ 7 := by decide

theorem test_meets_SuspendedInitWaitsOrGoesOn_sleep :
    HostMoves sleepWaiting sleepWaiting ∧ sleepWaiting.hpt.hp = .initWaitSleep ∧ sleepWaiting.mc.slak = true :=
  ⟨.inl ⟨rfl, rfl⟩, by decide, by decide⟩

theorem test_meets_SuspendedInitWaitsOrGoesOn_awake :
    HostMoves { sleepWaiting with mc := ⟨false, false, false, false⟩ }
      { sleepWaiting with mc := ⟨false, false, false, false⟩ } ∧
    sleepWaiting.hpt.hp = .initWaitSleep :=
  ⟨.inl ⟨rfl, rfl⟩, by decide⟩

theorem test_meets_SuspendedInitWaitsOrGoesOn_init :
    HostMoves initWaiting initWaiting ∧ initWaiting.hpt.hp = .initWaitInit ∧ initWaiting.mc.inak = false :=
  ⟨.inl ⟨rfl, rfl⟩, by decide, by decide⟩

theorem test_meets_SuspendedInitWaitsOrGoesOn_acknowledged :
    HostMoves initAcknowledged initAcknowledged ∧ initAcknowledged.hpt.hpBaud.toNat < 7 ∧
    initAcknowledged.hpt.hp = .initWaitInit ∧ initAcknowledged.mc.inak = true :=
  ⟨.inl ⟨rfl, rfl⟩, by decide, by decide, by decide⟩

theorem test_meets_InitCompletesWithItsAcknowledgments : (6 : BitVec 3).toNat < 7 ∧ State.reset.hpt.hp = .idle := by decide

theorem test_meets_InitHangsWithoutItsAcknowledgment :
    (sleepWaiting.hpt.hp = .initWaitSleep ∧ sleepWaiting.mc.slak = true ∧
      ∀ t ∈ [Turn.host, .agent .ackInit, .agent .errWarn], t ≠ .agent .ackWake ∧ ∀ d, t ≠ .reset d) ∧
    initWaiting.hpt.hp = .initWaitInit ∧ initWaiting.mc.inak = false ∧
      ∀ t ∈ [Turn.host, .agent .ackWake, .agent .errWarn], t ≠ .agent .ackInit ∧ ∀ d, t ≠ .reset d := by
  refine ⟨⟨by decide, by decide, ?_⟩, by decide, by decide, ?_⟩ <;> simp

/-- Host and the three acknowledgments in turn, for ever. -/
def roundRobin : Schedule := fun k =>
  if k % 4 = 0 then .host else if k % 4 = 1 then .agent .ackWake else if k % 4 = 2 then .agent .ackInit
  else .agent .ackRun

/-- Every acknowledgment keeps happening in `roundRobin`, so it is fair from every state. -/
theorem roundRobin_fair (s : State) : ModeAckFair roundRobin s := by
  refine ⟨fun n _ => ⟨4 * n + 1, by omega, ?_⟩, fun n _ => ⟨4 * n + 2, by omega, ?_⟩,
    fun n _ => ⟨4 * n + 3, by omega, ?_⟩⟩ <;> simp [roundRobin, Nat.add_mod]

theorem test_meets_InitReturnsUnderFairAcknowledgments :
    Inv sleepWaiting ∧ sleepWaiting.par.modeAckFair = true ∧ Admissible roundRobin sleepWaiting ∧
    (∀ k d, roundRobin k ≠ .reset d) ∧ (∀ n, ∃ k, n ≤ k ∧ roundRobin k = .host) ∧ sleepWaiting.hpt.hp ≠ .idle := by
  refine ⟨by decide, by decide, fun _ => roundRobin_fair _, fun k d => ?_, fun n => ⟨4 * n, by omega, ?_⟩, by decide⟩
  · unfold roundRobin
    split <;> [simp; split <;> [simp; split <;> simp]]
  · simp [roundRobin]

theorem test_meets_ModeEngineAcknowledges :
    AgentMoves .ackWake (agentNext .ackWake State.reset) State.reset ∧
    AgentMoves .ackInit (agentNext .ackInit initWaiting) initWaiting ∧
    AgentMoves .ackRun (agentNext .ackRun initAcknowledged) initAcknowledged :=
  ⟨agentMoves_agentNext _ _ rfl, agentMoves_agentNext _ _ rfl, agentMoves_agentNext _ _ rfl⟩

theorem test_meets_ConfigurationChangesOnlyInInitMode :
    Inv initAcknowledged ∧ (∀ d r, initAcknowledged.sched ≠ .reset d :: r) ∧
    step initAcknowledged = .next (stateOf (step initAcknowledged)) ∧
    (stateOf (step initAcknowledged)).cfg ≠ initAcknowledged.cfg := by
  refine ⟨by decide, by simp [initAcknowledged, State.reset, State.resetWith], rfl, fun h => ?_⟩
  have : (stateOf (step initAcknowledged)).cfg.lbkm = initAcknowledged.cfg.lbkm := by rw [h]
  exact absurd this (by decide)

theorem test_meets_SleepIsLeftOnce :
    (∀ d r, running.sched ≠ .reset d :: r) ∧ step running = .next (stateOf (step running)) ∧
    running.mc.slak = false := by
  exact ⟨by simp [running, State.reset, State.resetWith], rfl, rfl⟩

theorem test_meets_ConfigureFilterProgramsOneBank :
    (0 : BitVec 4).toNat < 14 ∧ (13 : BitVec 4).toNat < 14 ∧ State.reset.flt.finit = true := by decide

theorem test_meets_BankActivatedOnlyByItsConfiguration :
    step (hostNext [0x0500002D, 1, 2] State.reset) = .next (stateOf (step (hostNext [0x0500002D, 1, 2] State.reset))) ∧
    (hostNext [0x0500002D, 1, 2] State.reset).flt.act.getLsbD 13 = false ∧
    (stateOf (step (hostNext [0x0500002D, 1, 2] State.reset))).flt.act.getLsbD 13 = true :=
  ⟨rfl, by decide, by decide⟩

theorem test_meets_LeastKeyDecidesFifoAndIndex :
    matchFrame looped.flt ⟨false, false, 0x123, 0, 8, Vector.replicate 8 0⟩ = some (0, 0) := by decide

theorem test_meets_SourceFilterAcceptsItsIdentifier :
    looped.flt.act = 1 ∧ looped.flt.fbm.getLsbD 0 = false ∧ looped.flt.fsc.getLsbD 0 = true ∧
    looped.flt.ffa.getLsbD 0 = false ∧ looped.flt.fr1[0] = 0x01230000 ∧ looped.flt.fr2[0] = 0x07FF0000 := by decide

/-- A frame offered in normal mode while the filters are configured. -/
theorem test_meets_NothingReceivedWhileFiltersAreConfigured :
    AgentMoves (.busRx false false 0x123 0 (Vector.replicate 8 0) 0)
      (agentNext (.busRx false false 0x123 0 (Vector.replicate 8 0) 0) { running with flt := State.reset.flt })
      { running with flt := State.reset.flt } ∧
    State.reset.flt.finit = true ∧
    step (agentNext (.busRx false false 0x123 0 (Vector.replicate 8 0) 0) { running with flt := State.reset.flt }) =
      .next { running with flt := State.reset.flt } :=
  ⟨agentMoves_agentNext _ _ rfl, by decide, rfl⟩

theorem test_meets_TransmitLoadsTheLeastEmptyMailbox :
    (8 : BitVec 4).toNat ≤ 8 ∧ idInRange true 0x1FFFFFFF = true ∧ running.mf[(0 : MbIdx)].tme = true ∧
    (∀ m' : MbIdx, m' < 0 → running.mf[m'].tme = false) := by decide

/-- The last mailbox, the two before it pending. -/
theorem test_meets_TransmitLoadsTheLeastEmptyMailbox_last :
    ({ allPending with mf := allPending.mf.set 2 MbFlags.reset } : State).mf[(2 : MbIdx)].tme = true ∧
    ∀ m' : MbIdx, m' < 2 → ({ allPending with mf := allPending.mf.set 2 MbFlags.reset } : State).mf[m'].tme = false := by
  decide

theorem test_meets_PendingMailboxesAreUntouchedByTheHost :
    allPending.mf[(1 : MbIdx)].tme = false ∧
    exec (.vecTx 0) allPending = .next (stateOf (exec (.vecTx 0) allPending)) := ⟨by decide, rfl⟩

theorem test_meets_CodePointsAtTheLowestPriority :
    (∀ m : MbIdx, allPending.mf[m].tme = false) ∧ allPending.txq ≠ [] ∧
    allPending.par.txPriority = .prioOrder ∧ allPending.cfg.txfp = false ∧
    ({ allPending with cfg := { allPending.cfg with txfp := true } } : State).cfg.txfp = true := by decide

/-- The five clauses: by the upper part, by remote, by extension, by the lower part, by extended remote. -/
theorem test_meets_ArbitrationKeyOrdersFrames :
    (0x122 : BitVec 11).toNat < (0x123 : BitVec 11).toNat ∧
    (∃ x y : Mailbox, x.stid = y.stid ∧ x.ide = false ∧ y.ide = false ∧ x.exid = 0 ∧ y.exid = 0 ∧
      x.rtr = false ∧ y.rtr = true) ∧
    (∃ x y : Mailbox, x.stid = y.stid ∧ x.ide = false ∧ y.ide = true ∧ x.exid = 0) ∧
    (∃ x y : Mailbox, x.stid = y.stid ∧ x.ide = true ∧ y.ide = true ∧ x.exid.toNat < y.exid.toNat) ∧
    ∃ x y : Mailbox, x.stid = y.stid ∧ x.ide = true ∧ y.ide = true ∧ x.exid = y.exid ∧ x.rtr = false ∧ y.rtr = true := by
  have d : Payload := Vector.replicate 8 0
  exact ⟨by decide,
    ⟨⟨false, false, 1, 0, 0, false, d⟩, ⟨false, true, 1, 0, 0, false, d⟩, rfl, rfl, rfl, rfl, rfl, rfl, rfl⟩,
    ⟨⟨false, true, 1, 0, 0, false, d⟩, ⟨true, false, 1, 0, 0, false, d⟩, rfl, rfl, rfl, rfl⟩,
    ⟨⟨true, true, 1, 0x3FFFE, 0, false, d⟩, ⟨true, false, 1, 0x3FFFF, 0, false, d⟩, rfl, rfl, rfl,
      show (0x3FFFE : BitVec 18).toNat < (0x3FFFF : BitVec 18).toNat by decide⟩,
    ⟨⟨true, false, 1, 5, 0, false, d⟩, ⟨true, true, 1, 5, 0, false, d⟩, rfl, rfl, rfl, rfl, rfl, rfl⟩⟩

/-- `allPending` under both parameters of R166 and R167, with `art` 1. -/
def strict : State :=
  { allPending with par := ⟨.prioOrder, true, true, true⟩, cfg := { allPending.cfg with art := true } }

theorem test_meets_CompletionEndsTheRequest :
    AgentMoves (.txComplete 0 .abort 0 (Vector.replicate 8 0))
      (agentNext (.txComplete 0 .abort 0 (Vector.replicate 8 0)) strict) strict ∧
    strict.mc.slak = false ∧ strict.mc.inak = false ∧ strict.mf[(0 : MbIdx)].tme = false ∧
    (strict.par.txOrderStrict = true → (txPriority strict).head? = some 0) ∧
    (strict.par.artRestricts = true → strict.cfg.art = true → TxOutcome.abort = .ok ∨ TxOutcome.abort = .abort) :=
  ⟨agentMoves_agentNext _ _ rfl, by decide, by decide, by decide, by decide, by decide⟩

/-- The five grounds: asleep, in INIT mode, an empty mailbox, out of order, a failure ruled out. -/
theorem test_meets_CompletionNotEnabledChangesNothing :
    AgentMoves (.txComplete 0 .arbLost 0 (Vector.replicate 8 0))
      (agentNext (.txComplete 0 .arbLost 0 (Vector.replicate 8 0)) strict) strict ∧
    State.reset.mc.slak = true ∧ initAcknowledged.mc.inak = true ∧ running.mf[(0 : MbIdx)].tme = true ∧
    (strict.par.txOrderStrict = true ∧ (txPriority strict).head? ≠ some 2) ∧
    strict.par.artRestricts = true ∧ strict.cfg.art = true :=
  ⟨agentMoves_agentNext _ _ rfl, by decide, by decide, by decide, by decide, by decide, by decide⟩

theorem test_meets_SuccessSendsTheMailboxFrame :
    AgentMoves (.txComplete 0 .ok 7 (Vector.replicate 8 0))
      (agentNext (.txComplete 0 .ok 7 (Vector.replicate 8 0)) strict) strict ∧
    strict.mc.slak = false ∧ strict.mc.inak = false ∧ strict.mf[(0 : MbIdx)].tme = false ∧
    (strict.par.txOrderStrict = true → (txPriority strict).head? = some 0) :=
  ⟨agentMoves_agentNext _ _ rfl, by decide, by decide, by decide, by decide⟩

/-- The source's scenario V4. -/
theorem test_meets_LoopbackRoundTrip :
    idInRange false 0x123 = true ∧ looped.mc.slak = false ∧ looped.mc.inak = false ∧ looped.cfg.lbkm = true ∧
    looped.flt.finit = false ∧ looped.par.txOrderStrict = false ∧ (0 : BitVec 1).toNat = (0 : FifoIdx).val ∧
    looped.fifo[(0 : FifoIdx)].fmp = 0 ∧
    matchFrame looped.flt ⟨false, false, (idSplit false 0x123).1, (idSplit false 0x123).2, 8,
      dataUnpack 0x04030201 0x08070605⟩ = some (0, 0) ∧
    exec (.transmit false false 8 false 0 0x123 0x04030201 0x08070605) looped =
      .next (stateOf (exec (.transmit false false 8 false 0 0x123 0x04030201 0x08070605) looped)) ∧
    (stateOf (exec (.transmit false false 8 false 0 0x123 0x04030201 0x08070605) looped)).answers =
      looped.answers ++ [⟨.ok, [BitVec.ofNat 32 (0 : MbIdx).val]⟩] :=
  ⟨by decide, by decide, by decide, by decide, by decide, by decide, by decide, by decide, by decide, rfl, by decide⟩

theorem test_meets_ReceiveReadsTheWindowAndReleases :
    (0 : BitVec 1).toNat = (0 : FifoIdx).val ∧ received.fifo[(0 : FifoIdx)].fmp ≠ 0 := by decide

theorem test_meets_FifoIsAQueueOfThree : received.fifo[(0 : FifoIdx)].fmp ≠ 0 := by decide

theorem test_meets_EveryStepIsAQueueOperation :
    step (hostNext [0x07000000] received) = .next (stateOf (step (hostNext [0x07000000] received))) := rfl

/-- In range at the top of both ranges; and each ground on which nothing happens. -/
theorem test_meets_BusFrameGoesThroughTheMatcher :
    AgentMoves (.busRx true false 0x1FFFFFFF 8 (Vector.replicate 8 0) 0)
      (agentNext (.busRx true false 0x1FFFFFFF 8 (Vector.replicate 8 0) 0) running) running ∧
    running.mc.slak = false ∧ running.mc.inak = false ∧ (8 : BitVec 4).toNat ≤ 8 ∧
    (0x7FF : Word).toNat < 2 ^ 11 ∧ (0x1FFFFFFF : Word).toNat < 2 ^ 29 ∧ running.flt.finit = false ∧
    State.reset.mc.slak = true ∧ initAcknowledged.mc.inak = true ∧ 8 < (9 : BitVec 4).toNat ∧
    2 ^ 11 ≤ (0x800 : Word).toNat ∧ 2 ^ 29 ≤ (0x20000000 : Word).toNat ∧ State.reset.flt.finit = true :=
  ⟨agentMoves_agentNext _ _ rfl, by decide, by decide, by decide, by decide, by decide, by decide, by decide, by decide,
    by decide, by decide, by decide, by decide⟩

/-- Reserved bits at both ends of the field (START, FINIT_ENTER, FINIT_EXIT, FREE_COUNT). -/
theorem test_meets_reserved_bit_clauses : (1 : BitVec 24) ≠ 0 ∧ (0x800000 : BitVec 24) ≠ 0 := by decide

theorem test_meets_FreeCountCountsEmptyMailboxes :
    (8 : BitVec 4).toNat ≤ 8 ∧ idInRange false 0x7FF = true ∧ idInRange true 0x1FFFFFFF = true := by decide

theorem test_meets_MailboxAndFifoQueries : (0 : BitVec 2).toNat < 3 ∧ (2 : BitVec 2).toNat < 3 ∧
    (0 : BitVec 1).toNat = (0 : FifoIdx).val ∧ (1 : BitVec 1).toNat = (1 : FifoIdx).val := by decide

theorem test_meets_FifoErrorEnableAndBankReadBack : (1 : BitVec 1).toNat = (1 : FifoIdx).val ∧
    (0 : BitVec 4).toNat < 14 ∧ (13 : BitVec 4).toNat < 14 := by decide

theorem test_meets_QueriesAreRepeatable :
    isQuery (Instr.rdFbank 13 0).op = true ∧ (Instr.rdFbank 13 0).WellFormed ∧
    isQuery (Instr.freeCount 0).op = true ∧ (Instr.freeCount 0).WellFormed := by decide

theorem test_meets_NotificationEnabledAtomically : (0 : BitVec 5).toNat < 19 ∧ (18 : BitVec 5).toNat < 19 ∧
    (1 : BitVec 19) ≠ 0 ∧ 18 < (19 : BitVec 5).toNat ∧ 18 < (31 : BitVec 5).toNat := by decide

theorem test_meets_NotificationDisabledKeepsItsHandle : (14 : BitVec 5).toNat < 19 ∧ (15 : BitVec 5).toNat < 19 := by decide

theorem test_meets_TransmitVectorServesTheLeastMailbox :
    completed.vl[0].valid = false ∧ completed.mf[(1 : MbIdx)].rqcp = true ∧
    (∀ m' : MbIdx, m' < 1 → completed.mf[m'].rqcp = false) ∧ FlagsInv completed.mf[(1 : MbIdx)] ∧
    (3 : KindIdx).val = 3 * (1 : MbIdx).val +
      (if completed.mf[(1 : MbIdx)].txok then 0 else if completed.mf[(1 : MbIdx)].abrt then 1 else 2) ∧
    running.vl[0].valid = false ∧ ∀ m : MbIdx, running.mf[m].rqcp = false := by decide

theorem test_meets_ReceiveVectorSelectsInOrder : received.vl[1].valid = false ∧
    selectRx received 0 = some (9, .none) := by decide

theorem test_meets_SharedVectorSelectsFifoBeforeErrors : errored.vl[2].valid = false ∧
    (selectRx errored 1).or (selectErr errored) = some (18, .clrMerr) := by decide

theorem test_meets_VectorDonePerformsTheLatchedClear :
    (2 : BitVec 2).toNat = (2 : VecIdx).val ∧ (stateOf (exec (.vecRx1Sce 0) errored)).vl[(2 : VecIdx)].valid = true ∧
    (stateOf (exec (.vecRx1Sce 0) errored)).vl[(2 : VecIdx)].act = .clrMerr := by decide

/-- Asking for a callback, and not. -/
theorem test_meets_DisabledKindIsNeverHandedOut :
    exec (entryOf 1) received = .next (stateOf (exec (entryOf 1) received)) ∧
    (stateOf (exec (entryOf 1) received)).answers = received.answers ++ [⟨.ok, [0x00000709, 0x08002000]⟩] ∧
    bitOf 0x00000709 10 = true ∧
    exec (entryOf 1) running = .next (stateOf (exec (entryOf 1) running)) ∧
    (stateOf (exec (entryOf 1) running)).answers = running.answers ++ [⟨.ok, [0, 0]⟩] ∧ bitOf 0 10 = false :=
  ⟨rfl, by decide, by decide, rfl, by decide, by decide⟩

theorem test_meets_EntriesOpenOneServiceAndWriteOnlyTheLatch :
    (stateOf (exec (.vecTx 0) completed)).vl[(0 : VecIdx)].valid = true := by decide

theorem test_meets_LinesAreHighExactlyWhenTheEntryFindsAnEvent :
    (1 : VecIdx) ≠ 0 ∧ (2 : VecIdx) ≠ 0 ∧ received.vl[(1 : VecIdx)].valid = false ∧
    errored.vl[(2 : VecIdx)].valid = false ∧ irq received 1 = true ∧ irq errored 2 = true := by decide

theorem test_meets_LineIsTheOrOfItsActiveSources : ∀ m : MbIdx, FlagsInv completed.mf[m] := by decide

theorem test_meets_ErrorEngineLatchesItsFlags :
    AgentMoves .errWarn (agentNext .errWarn running) running ∧
    AgentMoves .errPassive (agentNext .errPassive running) running ∧
    AgentMoves .errBusOff (agentNext .errBusOff running) running ∧
    AgentMoves (.errBusErr 7) (agentNext (.errBusErr 7) running) running ∧ 1 ≤ (7 : BitVec 3).toNat ∧
    1 ≤ (1 : BitVec 3).toNat :=
  ⟨agentMoves_agentNext _ _ rfl, agentMoves_agentNext _ _ rfl, agentMoves_agentNext _ _ rfl,
    agentMoves_agentNext _ _ rfl, by decide, by decide⟩

theorem test_meets_ResetGivesTheTableValues :
    ({ sleepWaiting with sched := [.reset ResetDraw.zero] } : State).sched = .reset ResetDraw.zero :: [] := rfl

/-- A reset in the middle of a run: a suspended INIT, an answer and a frame on record. -/
def interrupted : State :=
  { sleepWaiting with
    sched := [.reset ResetDraw.zero, .agent .ackRun]
    answers := [⟨.ok, [1]⟩]
    busTx := [⟨storedSlot.frame, true⟩] }

/-- The state the reset of `interrupted` leaves, its next turn taken. -/
def interruptedAfter : State :=
  { State.resetWith ResetDraw.zero interrupted.par with answers := interrupted.answers, busTx := interrupted.busTx }

theorem test_meets_AfterResetOnlyTheErrorEngineMoves_reset :
    interrupted.sched = .reset ResetDraw.zero :: [.agent .ackRun] := rfl

/-- With a record of answers and frames, for an enabled and for a disabled step. -/
theorem test_meets_AfterResetOnlyTheErrorEngineMoves :
    interruptedAfter = { State.resetWith ResetDraw.zero interrupted.par with
      port := interruptedAfter.port, sched := interruptedAfter.sched, answers := interruptedAfter.answers,
      collab := interruptedAfter.collab, busTx := interruptedAfter.busTx } ∧
    AgentMoves .ackRun (agentNext .ackRun interruptedAfter) interruptedAfter ∧
    agentEnabled .ackRun interruptedAfter = false ∧ agentEnabled (.errBusErr 7) interruptedAfter = true :=
  ⟨rfl, agentMoves_agentNext _ _ rfl, by decide, by decide⟩

theorem test_meets_EveryStepKeepsTheInvariant :
    Inv looped ∧ step (hostNext [0x06000000, 0x123, 0, 0] looped) =
      .next (stateOf (step (hostNext [0x06000000, 0x123, 0, 0] looped))) := ⟨by decide, rfl⟩

theorem test_meets_EveryStepKeepsTheInvariant_suspended :
    Inv initAcknowledged ∧ step initAcknowledged = .next (stateOf (step initAcknowledged)) := ⟨by decide, rfl⟩

theorem test_meets_ParametersAreFixedForARun :
    step (hostNext [0x02000000] strict) = .next (stateOf (step (hostNext [0x02000000] strict))) := rfl

end Sys2Proof.Tests
end

/-! PROOFS of the statements about the state (10_state.md). First the laws they share: the queue a ring stands
for, what an operation, a host turn and a step can do to the state, and one rule per named update for the
invariant; then the statements. -/

namespace Sys2Proof.Machine

/-! The queue a FIFO stands for (R31, R190, R191). -/

theorem slotAt_zero (h : Fin 3) : slotAt h 0 = h := Fin.ext (Nat.mod_eq_of_lt h.isLt)

/-- The slots behind an advanced head are the slots one further behind the old one. -/
theorem slotAt_slotAt_one (h : Fin 3) (n : Nat) : slotAt (slotAt h 1) n = slotAt h (n + 1) :=
  Fin.ext (show ((h.val + 1) % 3 + n) % 3 = (h.val + (n + 1)) % 3 by omega)

/-- The three positions of a ring are different slots. -/
theorem slotAt_val_ne (h : Fin 3) {n k : Nat} (hn : n < k) (hk : k < 3) : (slotAt h k).val ≠ (slotAt h n).val := by
  show (h.val + k) % 3 ≠ (h.val + n) % 3
  omega

@[simp] theorem length_fifoList (x : Fifo) : (fifoList x).length = x.fmp.toNat := by simp [fifoList]

/-- The queue depends on the count, the head and the slots alone. -/
theorem fifoList_congr {x y : Fifo} (hfmp : x.fmp = y.fmp) (hhead : x.head = y.head) (hslot : x.slot = y.slot) :
    fifoList x = fifoList y := by
  simp [fifoList, hfmp, hhead, hslot]

/-- A ring's first `k` slots, with position `k` overwritten, are its first `k` slots and the new one. -/
theorem map_range_set_slotAt (x : Fifo) (y : Slot) {k : Nat} (hk : k < 3) :
    ((List.range (k + 1)).map fun n => (x.slot.set (slotAt x.head k).val y)[slotAt x.head n]) =
      ((List.range k).map fun n => x.slot[slotAt x.head n]) ++ [y] := by
  rw [List.range_succ, List.map_append]
  congr 1
  · refine List.map_congr_left fun n hn => ?_
    exact Vector.getElem_set_ne _ _ (slotAt_val_ne x.head (List.mem_range.1 hn) hk)
  · simp

/-- R190: below depth 3 an arrival is appended. -/
theorem fifoList_pushSlot_of_lt (rflm : Bool) (x : Fifo) (y : Slot) (h : x.fmp.toNat < 3) :
    fifoList (pushSlot rflm x y) = fifoList x ++ [y] := by
  have hcount : (x.fmp + 1).toNat = x.fmp.toNat + 1 := by
    rw [BitVec.toNat_add]
    exact Nat.mod_eq_of_lt (by simp; omega)
  rw [pushSlot_of_lt rflm x y h]
  simp only [fifoList, hcount]
  exact map_range_set_slotAt x y h

/-- R190, `rflm` 1: a full locked FIFO discards the arrival. -/
theorem fifoList_pushSlot_locked (x : Fifo) (y : Slot) (h : x.fmp.toNat = 3) :
    fifoList (pushSlot true x y) = fifoList x := by
  rw [pushSlot_locked x y h]
  exact fifoList_congr rfl rfl rfl

/-- R190, `rflm` 0: a full FIFO has its newest frame replaced. -/
theorem fifoList_pushSlot_unlocked (x : Fifo) (y : Slot) (h : x.fmp.toNat = 3) :
    fifoList (pushSlot false x y) = (fifoList x).dropLast ++ [y] := by
  have hinit : (fifoList x).dropLast = (List.range 2).map fun n => x.slot[slotAt x.head n] := by
    simp [fifoList, h, List.range_succ]
  rw [pushSlot_unlocked x y h, hinit]
  simp only [fifoList, h]
  exact map_range_set_slotAt x y (by decide)

theorem fmp_eq_three_of_not_lt {x : Fifo} (h : ¬ x.fmp.toNat < 3) : x.fmp.toNat = 3 := by
  have := x.fmp.isLt
  omega

/-- An arrival adds no frame to the queue but itself. -/
theorem mem_fifoList_pushSlot {rflm : Bool} {x : Fifo} {y z : Slot} (hz : z ∈ fifoList (pushSlot rflm x y)) :
    z ∈ fifoList x ∨ z = y := by
  by_cases h : x.fmp.toNat < 3
  · simpa [fifoList_pushSlot_of_lt rflm x y h] using hz
  · have h3 := fmp_eq_three_of_not_lt h
    cases rflm with
    | true => exact .inl (fifoList_pushSlot_locked x y h3 ▸ hz)
    | false =>
      rw [fifoList_pushSlot_unlocked x y h3, List.mem_append, List.mem_singleton] at hz
      exact hz.imp_left List.mem_of_mem_dropLast

/-- R191: a release takes the window off the front of the queue. -/
theorem fifoList_eq_window_cons (x : Fifo) (h : x.fmp ≠ 0) :
    fifoList x = window x :: fifoList (releaseSlot x) := by
  have hpos : x.fmp.toNat ≠ 0 := fun h0 => h (BitVec.eq_of_toNat_eq h0)
  obtain ⟨k, hk⟩ : ∃ k, x.fmp.toNat = k + 1 := Nat.exists_eq_succ_of_ne_zero hpos
  have hcount : (releaseSlot x).fmp.toNat = k := by
    show (x.fmp - 1).toNat = k
    have := x.fmp.isLt
    rw [BitVec.toNat_sub]
    simp
    omega
  simp only [fifoList, hk, hcount, List.range_succ_eq_map, List.map_cons, List.map_map, slotAt_zero]
  congr 1
  refine List.map_congr_left fun n _ => ?_
  show x.slot[slotAt x.head (n + 1)] = x.slot[slotAt (slotAt x.head 1) n]
  simp only [slotAt_slotAt_one]

/-- A stored frame with its index, as the invariant wants it. -/
def GoodSlot (y : Slot) : Prop := GoodFrame y.frame.ide y.frame.exid y.frame.dlc ∧ y.fmi.toNat ≤ 55

/-- The invariant of a ring is a property of the frames of its queue. -/
theorem fifoInv_iff (x : Fifo) : FifoInv x ↔ ∀ y ∈ fifoList x, GoodSlot y := by
  simp only [fifoList, List.mem_map, List.mem_range, forall_exists_index, and_imp, forall_apply_eq_imp_iff₂]
  constructor
  · intro h n hn
    have := x.fmp.isLt
    exact h ⟨n, by omega⟩ hn
  · exact fun h n hn => h n.val hn

theorem fifoInv_pushSlot {rflm : Bool} {x : Fifo} {y : Slot} (hx : FifoInv x) (hy : GoodSlot y) :
    FifoInv (pushSlot rflm x y) := by
  rw [fifoInv_iff] at *
  intro z hz
  rcases mem_fifoList_pushSlot hz with hz | rfl
  · exact hx z hz
  · exact hy

theorem fifoInv_releaseSlot {x : Fifo} (hx : FifoInv x) (h : x.fmp ≠ 0) : FifoInv (releaseSlot x) := by
  rw [fifoInv_iff] at *
  intro z hz
  exact hx z (by rw [fifoList_eq_window_cons x h]; exact List.mem_cons_of_mem _ hz)

theorem fifoList_resetWith (slot : Vector Slot 3) : fifoList (Fifo.resetWith slot) = [] := rfl

/-! What an operation can do (R81, R260). -/

/-- Everything carrying out an operation can make of a state, the answer included. -/
inductive OpEffect (s : State) : State → Prop where
  /-- A status other than OK, and nothing else (R260). -/
  | refused (st : Status) : OpEffect s (s.answer st [])
  /-- A query: result words and nothing else (R67). -/
  | queried (ws : List Word) : OpEffect s (s.answer .ok ws)
  /-- INIT, phase P1 (R110). -/
  | suspended (opMode : BitVec 2) (baud : BitVec 3) (pol : BitVec 6) (hbaud : baud ≠ 7) :
      OpEffect s (initPhase1 opMode baud pol s)
  /-- START (R111). -/
  | started : OpEffect s ((s.setMc { s.mc with initRq := false }).answer .ok [])
  /-- FINIT_ENTER, FINIT_EXIT, CFG_FILTER (R130 to R133). -/
  | filtered (x : Filters) : OpEffect s ((s.setFlt x).answer .ok [])
  /-- NOTIFY_EN, NOTIFY_DIS (R230, R231). -/
  | notified (x : Notify) : OpEffect s ((s.setNtf x).answer .ok [])
  /-- TRANSMIT with a mailbox empty (R161). -/
  | requested (x : Mailbox) (ws : List Word) (hempty : anyEmpty s = true) (hgood : GoodFrame x.ide x.exid x.dlc) :
      OpEffect s ((loadAndRequest (code s) x s).answer .ok ws)
  /-- RECEIVE with a frame pending (R191). -/
  | received (f : FifoIdx) (hpending : s.fifo[f].fmp ≠ 0) :
      OpEffect s ((s.setFifo f (releaseSlot s.fifo[f])).answer .ok (receiveWords (window s.fifo[f])))
  /-- A vector entry: the latch of its vector, and for multi-error the copied code (R232 to R239). -/
  | entered (v : VecIdx) (a : ClearAct) (snap : BitVec 3) (ws : List Word) (hfits : actFits v a = true) :
      OpEffect s (((s.setErr { s.err with lecSnap := snap }).setVl v ⟨true, a⟩).answer .ok ws)
  /-- VEC_DONE of an open service (R236). -/
  | returned (v : VecIdx) (hopen : s.vl[v].valid = true) : OpEffect s ((vectorReturn v s).answer .ok [])

/-- The result is a next state, an effect of an operation on `s`. -/
def HasOpEffect (s : State) (r : Result) : Prop := ∃ t, r = .next t ∧ OpEffect s t

theorem hasOpEffect_raise (st : Status) (s : State) : HasOpEffect s (raise st s) := ⟨_, rfl, .refused st⟩

theorem hasOpEffect_returnOk {s u : State} {ws : List Word} (h : OpEffect s (u.answer .ok ws)) :
    HasOpEffect s (returnOk ws u) := ⟨_, rfl, h⟩

/-- A check of R261: the operation is refused, or what follows the check decides. -/
theorem hasOpEffect_check {s : State} {c : Prop} [Decidable c] {st : Status} {r : Result}
    (h : ¬ c → HasOpEffect s r) : HasOpEffect s (if c then raise st s else r) := by
  split
  · exact hasOpEffect_raise st s
  · exact h ‹_›

/-- An operation whose only check is its reserved bits. -/
theorem hasOpEffect_checked_returnOk {s u : State} {c : Prop} [Decidable c] {ws : List Word}
    (h : OpEffect s (u.answer .ok ws)) : HasOpEffect s (if c then raise .errRange s else returnOk ws u) :=
  hasOpEffect_check fun _ => hasOpEffect_returnOk h

theorem hasOpEffect_execCfgFilter bank fbm fsc ffa rsvd w0 w1 (s : State) :
    HasOpEffect s (execCfgFilter bank fbm fsc ffa rsvd w0 w1 s) := by
  refine hasOpEffect_check fun _ => ?_
  split
  · exact hasOpEffect_raise _ s
  · split
    · exact hasOpEffect_returnOk (.filtered _)
    · exact hasOpEffect_raise _ s

/-- R91: a standard identifier has no extended part. -/
theorem idSplit_exid_of_standard {ide : Bool} {w : Word} (h : ide = false) : (idSplit ide w).2 = 0 := by
  subst h
  rfl

/-- R91, R101: what TRANSMIT loads is a good frame once its data-length-code is in range. -/
theorem goodFrame_mailboxOf ide rtr (dlc : BitVec 4) tgt w0 w1 w2 (h : dlc.toNat ≤ 8) :
    GoodFrame (mailboxOf ide rtr dlc tgt w0 w1 w2).ide (mailboxOf ide rtr dlc tgt w0 w1 w2).exid
      (mailboxOf ide rtr dlc tgt w0 w1 w2).dlc :=
  ⟨h, idSplit_exid_of_standard⟩

theorem hasOpEffect_execTransmit ide rtr dlc tgt rsvd w0 w1 w2 (s : State) :
    HasOpEffect s (execTransmit ide rtr dlc tgt rsvd w0 w1 w2 s) := by
  refine hasOpEffect_check fun hrange => hasOpEffect_check fun _ => hasOpEffect_check fun hempty => ?_
  have hdlc : dlc.toNat ≤ 8 := Nat.not_lt.1 fun h => hrange (.inr h)
  exact hasOpEffect_returnOk
    (.requested _ _ (Bool.eq_true_of_not_eq_false hempty) (goodFrame_mailboxOf ide rtr dlc tgt w0 w1 w2 hdlc))

/-- What the chain finds is one of its links. -/
theorem mem_of_chain_eq_some {links : List Link} {l : Link} (h : chain links = some l) : l ∈ links := by
  obtain ⟨-, l₁, l₂, rfl, -⟩ := chain_eq_some links l h
  simp

/-- A vector entry latches a clear of its own vector when every link of its chain does. -/
theorem hasOpEffect_vectorEntry {v : VecIdx} {links : List Link} (s : State)
    (hfits : ∀ l ∈ links, actFits v l.act = true) : HasOpEffect s (vectorEntry v links s) := by
  rcases vectorEntry_cases v links s with ⟨-, h⟩ | ⟨l, hl, h⟩
  · exact ⟨_, h, .entered v .none s.err.lecSnap _ rfl⟩
  · refine ⟨_, h, ?_⟩
    have hact := hfits l (mem_of_chain_eq_some hl)
    split
    · exact .entered v l.act s.err.lec _ hact
    · exact .entered v l.act s.err.lecSnap _ hact

theorem actFits_rxChain_zero (s : State) : ∀ l ∈ rxChain s 0, actFits 1 l.act = true := by
  simp [rxChain, actFits]

theorem actFits_thirdChain (s : State) : ∀ l ∈ rxChain s 1 ++ sceChain s, actFits 2 l.act = true := by
  simp [rxChain, sceChain, actFits]

theorem hasOpEffect_execVecTx rsvd (s : State) : HasOpEffect s (execVecTx rsvd s) := by
  refine hasOpEffect_check fun _ => hasOpEffect_check fun _ => ?_
  split
  · exact hasOpEffect_returnOk (.entered 0 .none s.err.lecSnap _ rfl)
  · exact hasOpEffect_returnOk (.entered 0 (.clrRqcp _) s.err.lecSnap _ rfl)

theorem hasOpEffect_execVecDone vector rsvd (s : State) : HasOpEffect s (execVecDone vector rsvd s) := by
  refine hasOpEffect_check fun _ => ?_
  split
  · exact hasOpEffect_raise _ s
  · split
    · exact hasOpEffect_returnOk (.returned _ ‹_›)
    · exact hasOpEffect_raise _ s

theorem hasOpEffect_execNotifyEn kind rsvd h (s : State) : HasOpEffect s (execNotifyEn kind rsvd h s) := by
  refine hasOpEffect_check fun _ => ?_
  split
  · exact hasOpEffect_raise _ s
  · exact hasOpEffect_returnOk (.notified _)

theorem hasOpEffect_execNotifyDis kind rsvd (s : State) : HasOpEffect s (execNotifyDis kind rsvd s) := by
  refine hasOpEffect_check fun _ => ?_
  split
  · exact hasOpEffect_raise _ s
  · exact hasOpEffect_returnOk (.notified _)

theorem hasOpEffect_execMboxPending index rsvd (s : State) : HasOpEffect s (execMboxPending index rsvd s) := by
  refine hasOpEffect_check fun _ => ?_
  split
  · exact hasOpEffect_raise _ s
  · exact hasOpEffect_returnOk (.queried _)

theorem hasOpEffect_execRdFbank bank rsvd (s : State) : HasOpEffect s (execRdFbank bank rsvd s) := by
  refine hasOpEffect_check fun _ => ?_
  split
  · exact hasOpEffect_raise _ s
  · exact hasOpEffect_returnOk (.queried _)

/-- Every operation gives a next state, by one of the effects. -/
theorem hasOpEffect_exec (i : Instr) (s : State) : HasOpEffect s (exec i s) := by
  cases i with
  | init => exact hasOpEffect_check fun h => ⟨_, rfl, .suspended _ _ _ fun h7 => h (.inr h7)⟩
  | start => exact hasOpEffect_checked_returnOk .started
  | finitEnter => exact hasOpEffect_checked_returnOk (.filtered _)
  | finitExit => exact hasOpEffect_checked_returnOk (.filtered _)
  | cfgFilter => exact hasOpEffect_execCfgFilter ..
  | transmit => exact hasOpEffect_execTransmit ..
  | receive => exact hasOpEffect_check fun _ => hasOpEffect_check fun h => hasOpEffect_returnOk (.received _ h)
  | freeCount => exact hasOpEffect_checked_returnOk (.queried _)
  | mboxPending => exact hasOpEffect_execMboxPending ..
  | fifoCount => exact hasOpEffect_checked_returnOk (.queried _)
  | notifyEn => exact hasOpEffect_execNotifyEn ..
  | notifyDis => exact hasOpEffect_execNotifyDis ..
  | vecTx => exact hasOpEffect_execVecTx ..
  | vecRx0 =>
    exact hasOpEffect_check fun _ => hasOpEffect_check fun _ => hasOpEffect_vectorEntry s (actFits_rxChain_zero s)
  | vecRx1Sce =>
    exact hasOpEffect_check fun _ => hasOpEffect_check fun _ => hasOpEffect_vectorEntry s (actFits_thirdChain s)
  | vecDone => exact hasOpEffect_execVecDone ..
  | rdCfg => exact hasOpEffect_checked_returnOk (.queried _)
  | rdMsr => exact hasOpEffect_checked_returnOk (.queried _)
  | rdTsr => exact hasOpEffect_checked_returnOk (.queried _)
  | rdRfr => exact hasOpEffect_checked_returnOk (.queried _)
  | rdEsr => exact hasOpEffect_checked_returnOk (.queried _)
  | rdIer => exact hasOpEffect_checked_returnOk (.queried _)
  | rdFbank => exact hasOpEffect_execRdFbank ..

theorem opEffect_of_exec {i : Instr} {s t : State} (h : exec i s = .next t) : OpEffect s t := by
  obtain ⟨t', ht', heff⟩ := hasOpEffect_exec i s
  obtain rfl : t' = t := Host.Outcome.next.inj (ht'.symm.trans h)
  exact heff

/-! What a host turn and a step can do (R65, R66). -/

/-- Everything the host port's turn can make of a state. -/
inductive HostEffect (s : State) : State → Prop where
  /-- Nothing: no whole transaction, or INIT waits on (R61, R116). -/
  | waited : HostEffect s s
  /-- The idle port takes words and carries out or refuses what they stand for. -/
  | took (rest : List Word) {t : State} (hidle : s.hpt.hp = .idle) (heff : OpEffect (s.setPort rest) t) :
      HostEffect s t
  /-- INIT, phase P2 (R110). -/
  | phase2 (hp : s.hpt.hp = .initWaitSleep) (hslak : s.mc.slak = false) : HostEffect s (initPhase2 s)
  /-- INIT, phase P3 (R110). -/
  | phase3 (hp : s.hpt.hp = .initWaitInit) (hinak : s.mc.inak = true) : HostEffect s (initPhase3 Config.baudTable s)

theorem hostEffect_acceptTransaction (s : State) (hidle : s.hpt.hp = .idle) :
    ∃ t, acceptTransaction s = .next t ∧ HostEffect s t := by
  unfold acceptTransaction
  split
  next i rest _ =>
    obtain ⟨t, ht, heff⟩ := hasOpEffect_exec i (s.setPort rest)
    exact ⟨t, ht, .took rest hidle heff⟩
  next rest _ => exact ⟨_, rfl, .took rest hidle (.refused _)⟩
  next => exact ⟨s, rfl, .waited⟩
  next => exact ⟨s, rfl, .waited⟩

theorem hostEffect_hostTurn (s : State) : ∃ t, hostTurn s = .next t ∧ HostEffect s t := by
  unfold hostTurn
  split
  next hp => exact hostEffect_acceptTransaction s hp
  next hp =>
    refine ⟨_, rfl, ?_⟩
    unfold resumeAtSleepWait
    split
    next => exact .waited
    next h => exact .phase2 hp (Bool.eq_false_of_not_eq_true h)
  next hp =>
    refine ⟨_, rfl, ?_⟩
    unfold resumeAtInitWait
    split
    next h => exact .phase3 hp h
    next => exact .waited

/-- A step in which the reset input moves. -/
theorem step_of_reset {s : State} {d : ResetDraw} {r : List Turn} (h : s.sched = .reset d :: r) :
    step s = .next (resetTurn d (s.setSched r)) := by
  simp only [step, stepOnce, nextTurn_cons s _ _ h, takeTurn]

/-- R66: a step is a turn of the host port, of an agent or of the reset input. -/
theorem step_cases {s t : State} (h : step s = .next t) :
    (∃ u, HostMoves s u ∧ HostEffect u t) ∨ (∃ a u, AgentMoves a s u ∧ t = agentTurn a u) ∨
      ∃ d r, s.sched = .reset d :: r ∧ t = resetTurn d (s.setSched r) := by
  have host {u : State} (hu : HostMoves s u) : ∃ u, HostMoves s u ∧ HostEffect u t := by
    obtain ⟨t', ht', heff⟩ := hostEffect_hostTurn u
    obtain rfl : t' = t := Host.Outcome.next.inj (ht'.symm.trans ((step_of_hostMoves s u hu).symm.trans h))
    exact ⟨u, hu, heff⟩
  rcases hs : s.sched with _ | ⟨_ | a | d, r⟩
  · exact .inl (host (.inl ⟨hs, rfl⟩))
  · exact .inl (host (.inr ⟨r, hs, rfl⟩))
  · have hu : AgentMoves a s (s.setSched r) := ⟨r, hs, rfl⟩
    exact .inr (.inl ⟨a, _, hu, Host.Outcome.next.inj (h.symm.trans (step_of_agentMoves a s _ hu))⟩)
  · exact .inr (.inr ⟨d, r, rfl, Host.Outcome.next.inj (h.symm.trans (step_of_reset hs))⟩)

/-- Taking a host turn from the schedule changes the schedule alone. -/
theorem HostMoves.eq_setSched {s u : State} (h : HostMoves s u) : ∃ r, u = s.setSched r := by
  rcases h with ⟨-, rfl⟩ | ⟨r, -, rfl⟩
  · exact ⟨u.sched, rfl⟩
  · exact ⟨r, rfl⟩

/-- Taking an agent's turn from the schedule changes the schedule alone. -/
theorem AgentMoves.eq_setSched {a : AgentStep} {s u : State} (h : AgentMoves a s u) : ∃ r, u = s.setSched r := by
  obtain ⟨r, -, rfl⟩ := h
  exact ⟨r, rfl⟩

/-- A property of the state that does not see the schedule is kept by a step when host turns, agent steps and
resets keep it. -/
theorem step_keeps {P : State → Prop} (hsched : ∀ s r, P s → P (s.setSched r))
    (hhost : ∀ {s t}, P s → HostEffect s t → P t) (hagent : ∀ a {s}, P s → P (agentTurn a s))
    (hreset : ∀ d {s}, P s → P (resetTurn d s)) {s t : State} (hs : P s) (h : step s = .next t) : P t := by
  rcases step_cases h with ⟨u, hu, heff⟩ | ⟨a, u, hu, rfl⟩ | ⟨d, r, -, rfl⟩
  · obtain ⟨r, rfl⟩ := hu.eq_setSched
    exact hhost (hsched s r hs) heff
  · obtain ⟨r, rfl⟩ := hu.eq_setSched
    exact hagent a (hsched s r hs)
  · exact hreset d (hsched s r hs)

end Sys2Proof.Machine

namespace Sys2Proof.Machine

/-! The agents (R11, R166, R190, R193). -/

/-- A turn of an agent does nothing, or the effect of its enabled step. -/
theorem agentTurn_cases (a : AgentStep) (s : State) :
    agentTurn a s = s ∨ agentEnabled a s = true ∧ agentTurn a s = agentEffect a s := by
  unfold agentTurn
  split
  · exact .inr ⟨‹_›, rfl⟩
  · exact .inl rfl

/-- What a successful completion's sending does: it may emit the frame, and may then deliver it (R168). -/
theorem sent_cases (x : Mailbox) (ts : BitVec 16) (pad : Payload) (s : State) :
    ∃ e, (e = s ∨ e = s.emitBus ⟨sentFrame x s.cfg.ttcm pad, x.tgt⟩) ∧
      (sent x ts pad s = deliver (sentFrame x s.cfg.ttcm pad) ts e ∨ sent x ts pad s = e) :=
  ⟨_, ite_eq_or_eq _ _ _, ite_eq_or_eq _ _ _⟩

/-- R166: the mailbox `m` freed with the flags of the outcome, its request out of the queue. -/
def freed (m : MbIdx) (o : TxOutcome) (s : State) : State :=
  (s.setMf m (completedFlags o s.mf[m])).setTxq (s.txq.filter fun x => x != m)

/-- A completion frees the mailbox, and may then send its frame. -/
theorem complete_cases (m : MbIdx) (o : TxOutcome) (ts : BitVec 16) (pad : Payload) (s : State) :
    complete m o ts pad s = sent s.mb[m] ts pad (freed m o s) ∨ complete m o ts pad s = freed m o s :=
  ite_eq_or_eq _ _ _

/-! The parameters (R47). -/

theorem deliver_par (fr : Frame) (ts : BitVec 16) (s : State) : (deliver fr ts s).par = s.par := by
  rcases deliver_cases fr ts s with h | ⟨f, fmi, -, -, h⟩
  · rw [h]
  · rw [h]
    rfl

theorem sent_par (x : Mailbox) (ts : BitVec 16) (pad : Payload) (s : State) : (sent x ts pad s).par = s.par := by
  obtain ⟨e, rfl | rfl, h | h⟩ := sent_cases x ts pad s <;> simp [h, deliver_par]

theorem complete_par (m : MbIdx) (o : TxOutcome) (ts : BitVec 16) (pad : Payload) (s : State) :
    (complete m o ts pad s).par = s.par := by
  rcases complete_cases m o ts pad s with h | h
  · rw [h, sent_par]
    rfl
  · rw [h]
    rfl

theorem agentTurn_par (a : AgentStep) (s : State) : (agentTurn a s).par = s.par := by
  rcases agentTurn_cases a s with h | ⟨-, h⟩
  · rw [h]
  · rw [h]
    cases a with
    | txComplete m o ts pad => exact complete_par m o ts pad s
    | busRx => exact deliver_par _ _ s
    | ackWake | ackInit | ackRun | errWarn | errPassive | errBusOff | errBusErr => rfl

theorem vectorReturn_par (v : VecIdx) (s : State) : (vectorReturn v s).par = s.par := by
  rw [vectorReturn, clearFlag_frame]
  rfl

theorem OpEffect.par_eq {s t : State} (h : OpEffect s t) : t.par = s.par := by
  cases h with
  | returned v => exact vectorReturn_par v s
  | refused | queried | suspended | started | filtered | notified | requested | received | entered => rfl

theorem HostEffect.par_eq {s t : State} (h : HostEffect s t) : t.par = s.par := by
  cases h with
  | took rest _ heff => exact heff.par_eq
  | waited | phase2 | phase3 => rfl

/-! The pending mailboxes (R42 (g), R165). -/

/-- A latched clear keeps the content and the empty flag of every mailbox. -/
theorem vectorReturn_mailboxes (v : VecIdx) (s : State) (m : MbIdx) :
    (vectorReturn v s).mb[m] = s.mb[m] ∧ (vectorReturn v s).mf[m].tme = s.mf[m].tme := by
  have hclear (a : ClearAct) : (clearFlag a s).mb = s.mb ∧ (clearFlag a s).mf[m].tme = s.mf[m].tme := by
    cases a with
    | clrRqcp k =>
      refine ⟨rfl, ?_⟩
      show (s.setMf k (clearCompletion s.mf[k])).mf[m].tme = s.mf[m].tme
      rw [State.setMf_mf_get]
      split
      · subst m
        rfl
      · rfl
    | none | clrFull | clrFovr | clrEwg | clrEpv | clrBof | clrMerr => exact ⟨rfl, rfl⟩
  obtain ⟨hmb, htme⟩ := hclear s.vl[v].act
  exact ⟨congrArg (fun (x : Vector Mailbox 3) => x[m]) hmb, htme⟩

/-- Loading a mailbox touches no other. -/
theorem loadAndRequest_other {k m : MbIdx} (x : Mailbox) (s : State) (h : k ≠ m) :
    (loadAndRequest k x s).mb[m] = s.mb[m] ∧ (loadAndRequest k x s).mf[m] = s.mf[m] := by
  constructor
  · show (s.setMb k x).mb[m] = s.mb[m]
    rw [State.setMb_mb_get, if_neg h]
  · show (s.setMf k { clearCompletion s.mf[k] with tme := false }).mf[m] = s.mf[m]
    rw [State.setMf_mf_get, if_neg h]

/-- TRANSMIT loads an empty mailbox (`code`), and VEC_DONE clears completion flags only. -/
theorem OpEffect.pending_untouched {s t : State} {m : MbIdx} (h : OpEffect s t) (hm : s.mf[m].tme = false) :
    t.mb[m] = s.mb[m] ∧ t.mf[m].tme = false := by
  cases h with
  | requested x ws hempty =>
    obtain ⟨hcode, -⟩ := code_of_anyEmpty s hempty
    have hne : code s ≠ m := by
      rintro rfl
      exact Bool.false_ne_true (hm.symm.trans hcode)
    obtain ⟨hmb, hmf⟩ := loadAndRequest_other x s hne
    exact ⟨hmb, (congrArg MbFlags.tme hmf).trans hm⟩
  | returned v =>
    obtain ⟨hmb, htme⟩ := vectorReturn_mailboxes v s m
    exact ⟨hmb, htme.trans hm⟩
  | refused | queried | suspended | started | filtered | notified | received | entered => exact ⟨rfl, hm⟩

/-! The queues under a step (R31, R194). -/

/-- FIFO `f` of `t` is that of `s`, or that of `s` after one arrival. -/
def ArrivedOrSame (s t : State) (f : FifoIdx) : Prop :=
  t.fifo[f] = s.fifo[f] ∨ ∃ y, t.fifo[f] = pushSlot s.cfg.rflm s.fifo[f] y

theorem deliver_arrivedOrSame (fr : Frame) (ts : BitVec 16) (s : State) (f : FifoIdx) :
    ArrivedOrSame s (deliver fr ts s) f := by
  rcases deliver_cases fr ts s with h | ⟨g, fmi, -, -, h⟩
  · exact .inl (by rw [h])
  · rw [ArrivedOrSame, h, State.setFifo_fifo_get]
    split
    · subst f
      exact .inr ⟨_, rfl⟩
    · exact .inl rfl

theorem sent_arrivedOrSame (x : Mailbox) (ts : BitVec 16) (pad : Payload) (s : State) (f : FifoIdx) :
    ArrivedOrSame s (sent x ts pad s) f := by
  obtain ⟨e, rfl | rfl, h | h⟩ := sent_cases x ts pad s
  · exact h ▸ deliver_arrivedOrSame _ ts e f
  · exact .inl (by rw [h])
  · rw [h]
    exact deliver_arrivedOrSame _ ts (s.emitBus _) f
  · exact .inl (by rw [h, State.emitBus_fifo])

/-- A completion's loopback is its only arrival. -/
theorem complete_arrivedOrSame (m : MbIdx) (o : TxOutcome) (ts : BitVec 16) (pad : Payload) (s : State) (f : FifoIdx) :
    ArrivedOrSame s (complete m o ts pad s) f := by
  rcases complete_cases m o ts pad s with h | h
  · rw [h]
    exact sent_arrivedOrSame _ ts pad (freed m o s) f
  · exact .inl (by rw [h]; rfl)

theorem agentTurn_arrivedOrSame (a : AgentStep) (s : State) (f : FifoIdx) : ArrivedOrSame s (agentTurn a s) f := by
  rcases agentTurn_cases a s with h | ⟨-, h⟩
  · exact .inl (by rw [h])
  · rw [h]
    cases a with
    | txComplete m o ts pad => exact complete_arrivedOrSame m o ts pad s f
    | busRx => exact deliver_arrivedOrSame _ _ s f
    | ackWake | ackInit | ackRun | errWarn | errPassive | errBusOff | errBusErr => exact .inl rfl

/-- A latched clear writes flags and leaves the queues. -/
theorem vectorReturn_fifoList (v : VecIdx) (s : State) (f : FifoIdx) :
    fifoList (vectorReturn v s).fifo[f] = fifoList s.fifo[f] := by
  have hset (g : FifoIdx) (x : Fifo) (hx : fifoList x = fifoList s.fifo[g]) :
      fifoList (s.setFifo g x).fifo[f] = fifoList s.fifo[f] := by
    rw [State.setFifo_fifo_get]
    split
    · subst f
      exact hx
    · rfl
  show fifoList (clearFlag s.vl[v].act s).fifo[f] = fifoList s.fifo[f]
  cases s.vl[v].act with
  | clrFull g => exact hset g _ (fifoList_congr rfl rfl rfl)
  | clrFovr g => exact hset g _ (fifoList_congr rfl rfl rfl)
  | none | clrRqcp | clrEwg | clrEpv | clrBof | clrMerr => rfl

/-- An operation leaves a queue as it is, or is a RECEIVE that hands out and removes its oldest frame. -/
theorem OpEffect.fifoList_cases {s t : State} (h : OpEffect s t) (f : FifoIdx) :
    fifoList t.fifo[f] = fifoList s.fifo[f] ∨
      ∃ y, fifoList s.fifo[f] = y :: fifoList t.fifo[f] ∧ t.answers = s.answers ++ [⟨.ok, receiveWords y⟩] := by
  cases h with
  | received g hpending =>
    by_cases hg : g = f
    · subst g
      refine .inr ⟨window s.fifo[f], ?_, rfl⟩
      rw [fifoList_eq_window_cons _ hpending]
      show _ = window s.fifo[f] :: fifoList (s.setFifo f (releaseSlot s.fifo[f])).fifo[f]
      rw [State.setFifo_fifo_get, if_pos rfl]
    · refine .inl (congrArg fifoList ?_)
      show (s.setFifo g (releaseSlot s.fifo[g])).fifo[f] = s.fifo[f]
      rw [State.setFifo_fifo_get, if_neg hg]
  | returned v => exact .inl (vectorReturn_fifoList v s f)
  | refused | queried | suspended | started | filtered | notified | requested | entered => exact .inl rfl

theorem HostEffect.fifoList_cases {s t : State} (h : HostEffect s t) (f : FifoIdx) :
    fifoList t.fifo[f] = fifoList s.fifo[f] ∨
      ∃ y, fifoList s.fifo[f] = y :: fifoList t.fifo[f] ∧ t.answers = s.answers ++ [⟨.ok, receiveWords y⟩] := by
  cases h with
  | took rest _ heff => exact heff.fifoList_cases f
  | waited | phase2 | phase3 => exact .inl rfl

theorem pushSlot_fovr_of_full {rflm : Bool} {x : Fifo} {y : Slot} (h : x.fmp.toNat = 3) :
    (pushSlot rflm x y).fovr = true := by
  cases rflm with
  | true => rw [pushSlot_locked x y h]
  | false => rw [pushSlot_unlocked x y h]

/-- An arrival as a queue operation: append below depth 3, at depth 3 nothing or replace the newest (R190). -/
theorem ArrivedOrSame.fifoList_cases {s t : State} {f : FifoIdx} (h : ArrivedOrSame s t f) :
    fifoList t.fifo[f] = fifoList s.fifo[f] ∨
      (∃ y, (fifoList s.fifo[f]).length < 3 ∧ fifoList t.fifo[f] = fifoList s.fifo[f] ++ [y]) ∨
      ∃ y, (fifoList s.fifo[f]).length = 3 ∧ s.cfg.rflm = false ∧ t.fifo[f].fovr = true ∧
        fifoList t.fifo[f] = (fifoList s.fifo[f]).dropLast ++ [y] := by
  rcases h with h | ⟨y, h⟩
  · exact .inl (congrArg fifoList h)
  · rw [h, length_fifoList]
    by_cases hlt : s.fifo[f].fmp.toNat < 3
    · exact .inr (.inl ⟨y, hlt, fifoList_pushSlot_of_lt _ _ y hlt⟩)
    · have h3 := fmp_eq_three_of_not_lt hlt
      cases hr : s.cfg.rflm with
      | true => exact .inl (fifoList_pushSlot_locked _ y h3)
      | false => exact .inr (.inr ⟨y, h3, rfl, pushSlot_fovr_of_full h3, fifoList_pushSlot_unlocked _ y h3⟩)

theorem resetTurn_fifoList (d : ResetDraw) (s : State) (f : FifoIdx) : fifoList (resetTurn d s).fifo[f] = [] := by
  fin_cases f
  · exact fifoList_resetWith d.slot[0]
  · exact fifoList_resetWith d.slot[1]

end Sys2Proof.Machine

section

open Sys2Proof Sys2Proof.Machine

/-- Settles O36: a host turn takes the oldest or nothing, an agent's turn is at most one arrival, a reset empties. -/
theorem everyStepIsAQueueOperation : Obligations.EveryStepIsAQueueOperation := by
  intro s t f h
  rcases step_cases h with ⟨u, hu, heff⟩ | ⟨a, u, hu, rfl⟩ | ⟨d, r, hs, rfl⟩
  · obtain ⟨r, rfl⟩ := hu.eq_setSched
    rcases heff.fifoList_cases f with hsame | htaken
    · exact .inl hsame
    · exact .inr (.inr (.inr (.inl htaken)))
  · obtain ⟨r, rfl⟩ := hu.eq_setSched
    rcases (agentTurn_arrivedOrSame a (s.setSched r) f).fifoList_cases with hsame | happended | hreplaced
    · exact .inl hsame
    · exact .inr (.inl happended)
    · exact .inr (.inr (.inl hreplaced))
  · exact .inr (.inr (.inr (.inr ⟨d, r, hs, resetTurn_fifoList d _ f⟩)))

/-- Settles O27, by the effects of an operation. -/
theorem pendingMailboxesAreUntouchedByTheHost : Obligations.PendingMailboxesAreUntouchedByTheHost :=
  fun _ _ _ _ hm h => (opEffect_of_exec h).pending_untouched hm

/-- Settles O60: no turn writes the parameters. -/
theorem parametersAreFixedForARun : Obligations.ParametersAreFixedForARun := fun s _ h =>
  step_keeps (P := fun u => u.par = s.par) (fun _ _ hs => hs) (fun hs heff => heff.par_eq.trans hs)
    (fun a _ hs => (agentTurn_par a _).trans hs) (fun _ _ hs => hs) rfl h

end

namespace Sys2Proof.Machine

/-! The invariant (R42): one rule per named update. An update of a field no clause reads keeps it by definition. -/

theorem Inv.setPort {s : State} (h : Inv s) (ws : List Word) : Inv (s.setPort ws) := h

theorem Inv.setSched {s : State} (h : Inv s) (ts : List Turn) : Inv (s.setSched ts) := h

theorem Inv.setCfg {s : State} (h : Inv s) (x : Cfg) : Inv (s.setCfg x) := h

theorem Inv.setFlt {s : State} (h : Inv s) (x : Filters) : Inv (s.setFlt x) := h

theorem Inv.setNtf {s : State} (h : Inv s) (x : Notify) : Inv (s.setNtf x) := h

theorem Inv.emitCollab {s : State} (h : Inv s) (rs : List CollabReq) : Inv (s.emitCollab rs) := h

theorem Inv.pending {s : State} (h : Inv s) : PendingInv s :=
  let ⟨hpend, _⟩ := h
  hpend

theorem Inv.handshake {s : State} (h : Inv s) : HandshakeInv s :=
  let ⟨_, hhand, _⟩ := h
  hhand

theorem Inv.flags {s : State} (h : Inv s) (m : MbIdx) : FlagsInv s.mf[m] :=
  let ⟨_, _, hflags, _⟩ := h
  hflags m

theorem Inv.mailbox {s : State} (h : Inv s) : MailboxInv s :=
  let ⟨_, _, _, hmb, _⟩ := h
  hmb

theorem Inv.fifo {s : State} (h : Inv s) (f : FifoIdx) : FifoInv s.fifo[f] :=
  let ⟨_, _, _, _, hfifo, _⟩ := h
  hfifo f

theorem Inv.err {s : State} (h : Inv s) : ErrInv s :=
  let ⟨_, _, _, _, _, _, herr, _⟩ := h
  herr

theorem Inv.output {s : State} (h : Inv s) : OutputInv s :=
  let ⟨_, _, _, _, _, _, _, hout⟩ := h
  hout

/-- An answer keeps the invariant when only OK carries result words. -/
theorem Inv.answer {s : State} (h : Inv s) {st : Status} {ws : List Word} (hws : st ≠ .ok → ws = []) :
    Inv (s.answer st ws) := by
  obtain ⟨hpend, hhand, hflags, hmb, hfifo, hlatch, herr, hans, hbus⟩ := h
  refine ⟨hpend, hhand, hflags, hmb, hfifo, hlatch, herr, fun a ha => ?_, hbus⟩
  rcases List.mem_append.1 ha with ha | ha
  · exact hans a ha
  · obtain rfl := List.mem_singleton.1 ha
    exact hws

theorem Inv.answerOk {s : State} (h : Inv s) (ws : List Word) : Inv (s.answer .ok ws) :=
  h.answer fun hne => absurd rfl hne

/-- A good frame on `bus_tx` keeps the invariant. -/
theorem Inv.emitBus {s : State} (h : Inv s) {x : BusFrame} (hx : GoodFrame x.frame.ide x.frame.exid x.frame.dlc) :
    Inv (s.emitBus x) := by
  obtain ⟨hpend, hhand, hflags, hmb, hfifo, hlatch, herr, hans, hbus⟩ := h
  refine ⟨hpend, hhand, hflags, hmb, hfifo, hlatch, herr, hans, fun y hy => ?_⟩
  rcases List.mem_append.1 hy with hy | hy
  · exact hbus y hy
  · obtain rfl := List.mem_singleton.1 hy
    exact hx

/-- A write of the handshake and of the host-port record keeps the invariant when their own clause holds after. -/
theorem Inv.setMc_setHpt {s : State} (h : Inv s) {x : ModeCtl} {y : HostPort}
    (hhand : HandshakeInv ((s.setMc x).setHpt y)) : Inv ((s.setMc x).setHpt y) := by
  obtain ⟨hpend, -, hrest⟩ := h
  exact ⟨hpend, hhand, hrest⟩

theorem Inv.setMc {s : State} (h : Inv s) {x : ModeCtl} (hhand : HandshakeInv (s.setMc x)) : Inv (s.setMc x) :=
  h.setMc_setHpt (y := s.hpt) hhand

theorem Inv.setHpt {s : State} (h : Inv s) {y : HostPort} (hhand : HandshakeInv (s.setHpt y)) : Inv (s.setHpt y) :=
  h.setMc_setHpt (x := s.mc) hhand

theorem Inv.setErr {s : State} (h : Inv s) {x : ErrStatus} (hx : x.merr = true → x.lec ≠ 0) : Inv (s.setErr x) := by
  obtain ⟨hpend, hhand, hflags, hmb, hfifo, hlatch, -, hout⟩ := h
  exact ⟨hpend, hhand, hflags, hmb, hfifo, hlatch, hx, hout⟩

theorem Inv.setVl {s : State} (h : Inv s) {v : VecIdx} {x : VLatch} (hx : x.valid = true → actFits v x.act = true) :
    Inv (s.setVl v x) := by
  obtain ⟨hpend, hhand, hflags, hmb, hfifo, hlatch, herr, hout⟩ := h
  refine ⟨hpend, hhand, hflags, hmb, hfifo, fun w => ?_, herr, hout⟩
  rw [State.setVl_vl_get]
  split
  · subst w
    exact hx
  · exact hlatch w

theorem Inv.setFifo {s : State} (h : Inv s) {f : FifoIdx} {x : Fifo} (hx : FifoInv x) : Inv (s.setFifo f x) := by
  obtain ⟨hpend, hhand, hflags, hmb, hfifo, hlatch, herr, hout⟩ := h
  refine ⟨hpend, hhand, hflags, hmb, fun g => ?_, hlatch, herr, hout⟩
  rw [State.setFifo_fifo_get]
  split
  · exact hx
  · exact hfifo g

/-- Content, flags and queue written together for one mailbox: the queue then names it exactly if it is pending. -/
theorem Inv.setMailbox {s : State} (h : Inv s) {m : MbIdx} {x : Mailbox} {fl : MbFlags} {q : List MbIdx}
    (hmem : ∀ k, k ∈ q ↔ if m = k then fl.tme = false else k ∈ s.txq) (hnodup : q.Nodup) (hfl : FlagsInv fl)
    (hx : fl.tme = false → GoodFrame x.ide x.exid x.dlc) : Inv (((s.setMb m x).setMf m fl).setTxq q) := by
  obtain ⟨⟨hpend, -⟩, hhand, hflags, hmb, hrest⟩ := h
  refine ⟨⟨fun k => ?_, hnodup⟩, hhand, fun k => ?_, fun k => ?_, hrest⟩
  · rw [State.setTxq_mf, State.setMf_mf_get, State.setTxq_txq, hmem]
    split
    · exact Iff.rfl
    · exact hpend k
  · rw [State.setTxq_mf, State.setMf_mf_get]
    split
    · exact hfl
    · exact hflags k
  · rw [State.setTxq_mf, State.setMf_mf_get, State.setTxq_mb, State.setMf_mb, State.setMb_mb_get]
    split
    · exact hx
    · exact hmb k

/-- Flags and queue written for one mailbox whose content stays. -/
theorem Inv.setMf_setTxq {s : State} (h : Inv s) {m : MbIdx} {fl : MbFlags} {q : List MbIdx}
    (hmem : ∀ k, k ∈ q ↔ if m = k then fl.tme = false else k ∈ s.txq) (hnodup : q.Nodup) (hfl : FlagsInv fl)
    (hx : fl.tme = false → GoodFrame s.mb[m].ide s.mb[m].exid s.mb[m].dlc) : Inv ((s.setMf m fl).setTxq q) := by
  have hself : s.setMb m s.mb[m] = s := by simp [State.setMb]
  have hmailbox := h.setMailbox (x := s.mb[m]) hmem hnodup hfl hx
  rwa [hself] at hmailbox

/-! The mailbox operations (R161, R166, R169). -/

theorem flagsInv_clearCompletion (x : MbFlags) : FlagsInv (clearCompletion x) := ⟨rfl, fun _ => rfl⟩

/-- A pending mailbox has no completion flag, so a completion sets exactly one outcome. -/
theorem flagsInv_completedFlags (o : TxOutcome) {x : MbFlags} (h : FlagsInv x) (hpending : x.tme = false) :
    FlagsInv (completedFlags o x) := by
  obtain ⟨hcount, hrqcp⟩ := h
  rw [hrqcp hpending, outcomeCount] at hcount
  have hnone : x.txok = false ∧ x.alst = false ∧ x.terr = false ∧ x.abrt = false := by
    simpa [and_assoc] using hcount
  cases o <;> simp [completedFlags, FlagsInv, outcomeCount, hnone]

theorem completedFlags_tme (o : TxOutcome) (x : MbFlags) : (completedFlags o x).tme = true := by cases o <;> rfl

theorem Inv.loadAndRequest {s : State} (h : Inv s) {m : MbIdx} {x : Mailbox} (hempty : s.mf[m].tme = true)
    (hx : GoodFrame x.ide x.exid x.dlc) : Inv (loadAndRequest m x s) := by
  obtain ⟨hpend, hnodup⟩ := h.pending
  have hnot : m ∉ s.txq := fun hm => Bool.false_ne_true (((hpend m).2 hm).symm.trans hempty)
  refine h.setMailbox (fun k => ?_) (List.concat_eq_append ▸ hnodup.concat hnot) ⟨rfl, fun _ => rfl⟩ fun _ => hx
  by_cases hk : m = k
  · simp [hk]
  · simp [hk, Ne.symm hk]

theorem Inv.freed {s : State} (h : Inv s) {m : MbIdx} (o : TxOutcome) (hpending : s.mf[m].tme = false) :
    Inv (freed m o s) := by
  obtain ⟨-, hnodup⟩ := h.pending
  have htme := completedFlags_tme o s.mf[m]
  refine h.setMf_setTxq (fun k => ?_) (hnodup.filter _) (flagsInv_completedFlags o (h.flags m) hpending)
    fun hfalse => absurd (hfalse.symm.trans htme) Bool.false_ne_true
  by_cases hk : m = k
  · subst k
    simpa using htme
  · simp [hk, Ne.symm hk]

/-! Storing a received frame (R135 to R139, R190). -/

theorem nFilters_le_four (x : Filters) (b : BankIdx) : nFilters x b ≤ 4 := by
  unfold nFilters entries
  dsimp only
  split <;> split <;> simp

theorem length_banksBelow (b : BankIdx) : (allBanks.filter fun b' => decide (b'.val < b.val)).length = b.val := by
  revert b
  decide

/-- R138: the banks below `b` assigned to FIFO `f`. -/
def lowerBanks (x : Filters) (f : FifoIdx) (b : BankIdx) : List BankIdx :=
  allBanks.filter fun b' => decide (b'.val < b.val) && bankFifo x b' == f

theorem fmiBase_eq (x : Filters) (f : FifoIdx) (b : BankIdx) :
    fmiBase x f b = ((lowerBanks x f b).map (nFilters x)).sum := rfl

theorem length_lowerBanks_le (x : Filters) (f : FifoIdx) (b : BankIdx) : (lowerBanks x f b).length ≤ b.val := by
  rw [← length_banksBelow b]
  exact (List.monotone_filter_right allBanks fun b' hb' => by simp_all).length_le

/-- At most `b` banks below `b`, at most four filters in each. -/
theorem fmiBase_le (x : Filters) (f : FifoIdx) (b : BankIdx) : fmiBase x f b ≤ b.val * 4 :=
  calc fmiBase x f b = ((lowerBanks x f b).map (nFilters x)).sum := fmiBase_eq x f b
    _ ≤ (lowerBanks x f b).length * 4 := by
      simpa using List.sum_le_card_nsmul ((lowerBanks x f b).map (nFilters x)) 4 (by simp [nFilters_le_four])
    _ ≤ b.val * 4 := Nat.mul_le_mul_right 4 (length_lowerBanks_le x f b)

/-- R138: no filter-match index is above 55. -/
theorem fmi_le_of_matchFrame {x : Filters} {fr : Frame} {f : FifoIdx} {fmi : BitVec 8}
    (h : matchFrame x fr = some (f, fmi)) : fmi.toNat ≤ 55 := by
  have hpos : ∀ k ∈ hitList x fr, k.j < 4 := by
    intro k hk
    obtain ⟨-, e, he, hj, -⟩ := (mem_hitList x fr k).1 hk
    exact hj ▸ entry_position_lt x k.bank e he
  unfold matchFrame at h
  split at h
  · cases h
  next k hk =>
    obtain ⟨hmem, -⟩ := leastHit_spec x _ hpos k hk
    obtain ⟨rfl, rfl⟩ : bankFifo x k.bank = f ∧ _ = fmi := by simpa using h
    have hj := hpos k hmem
    have hbase := fmiBase_le x (bankFifo x k.bank) k.bank
    have hbank := k.bank.isLt
    rw [BitVec.toNat_ofNat]
    exact (Nat.mod_le _ _).trans (by omega)

theorem Inv.deliver {s : State} (h : Inv s) {fr : Frame} (ts : BitVec 16) (hfr : GoodFrame fr.ide fr.exid fr.dlc) :
    Inv (deliver fr ts s) := by
  rcases deliver_cases fr ts s with he | ⟨f, fmi, -, hm, he⟩
  · rwa [he]
  · rw [he]
    exact h.setFifo (fifoInv_pushSlot (h.fifo f) ⟨hfr, fmi_le_of_matchFrame hm⟩)

/-- R91, R193: the frame an enabled BusRx delivers is good. -/
theorem goodFrame_busFrame ide rtr id (dlc : BitVec 4) payload (h : dlc.toNat ≤ 8) :
    GoodFrame (busFrame ide rtr id dlc payload).ide (busFrame ide rtr id dlc payload).exid
      (busFrame ide rtr id dlc payload).dlc :=
  ⟨h, idSplit_exid_of_standard⟩

/-- A completion that sends keeps the invariant when the mailbox content is a good frame. -/
theorem Inv.sent {s : State} (h : Inv s) {x : Mailbox} (ts : BitVec 16) (pad : Payload)
    (hx : GoodFrame x.ide x.exid x.dlc) : Inv (sent x ts pad s) := by
  obtain ⟨e, he, hsent⟩ := sent_cases x ts pad s
  have hemitted : Inv e := by
    rcases he with rfl | rfl
    · exact h
    · exact h.emitBus hx
  rcases hsent with hsent | hsent
  · exact hsent ▸ hemitted.deliver ts hx
  · exact hsent ▸ hemitted

theorem Inv.complete {s : State} (h : Inv s) {m : MbIdx} (o : TxOutcome) (ts : BitVec 16) (pad : Payload)
    (hpending : s.mf[m].tme = false) : Inv (complete m o ts pad s) := by
  rcases complete_cases m o ts pad s with hc | hc
  · exact hc ▸ (h.freed o hpending).sent ts pad (h.mailbox m hpending)
  · exact hc ▸ h.freed o hpending

/-! The vector services (R232 to R239). -/

theorem Inv.clearFlag {s : State} (h : Inv s) (a : ClearAct) : Inv (clearFlag a s) := by
  cases a with
  | none => exact h
  | clrRqcp m =>
    obtain ⟨hpend, hnodup⟩ := h.pending
    refine h.setMf_setTxq (fun k => ?_) hnodup (flagsInv_clearCompletion s.mf[m]) (h.mailbox m)
    split
    · subst k
      exact (hpend m).symm
    · exact Iff.rfl
  | clrFull f => exact h.setFifo (h.fifo f)
  | clrFovr f => exact h.setFifo (h.fifo f)
  | clrEwg => exact h.setErr h.err
  | clrEpv => exact h.setErr h.err
  | clrBof => exact h.setErr h.err
  | clrMerr => exact h.setErr fun hmerr => absurd hmerr Bool.false_ne_true

theorem Inv.vectorReturn {s : State} (h : Inv s) (v : VecIdx) : Inv (vectorReturn v s) :=
  (h.clearFlag _).setVl fun hvalid => absurd hvalid Bool.false_ne_true

/-! The mode handshake (R110 to R112). -/

theorem Inv.initPhase1 {s : State} (h : Inv s) (opMode : BitVec 2) {baud : BitVec 3} (pol : BitVec 6)
    (hbaud : baud ≠ 7) : Inv (initPhase1 opMode baud pol s) := by
  obtain ⟨hexcl, -⟩ := h.handshake
  exact (h.emitCollab _).setMc_setHpt ⟨hexcl, fun _ => rfl, fun _ => rfl, nofun, fun _ => hbaud⟩

theorem Inv.initPhase2 {s : State} (h : Inv s) (hp : s.hpt.hp = .initWaitSleep) (hslak : s.mc.slak = false) :
    Inv (initPhase2 s) := by
  obtain ⟨hexcl, hsleep, -, -, hbaud⟩ := h.handshake
  exact h.setMc_setHpt ⟨hexcl, hsleep, nofun, fun _ => ⟨hslak, rfl⟩, fun _ => hbaud (by simp [hp])⟩

/-- Phase P3 writes some configuration, ends the suspension and answers OK. -/
theorem initPhase3_eq (tbl : Fin 7 → BaudEntry) (s : State) :
    ∃ x, initPhase3 tbl s = ((s.setCfg x).setHpt { s.hpt with hp := .idle }).answer .ok [] := ⟨_, rfl⟩

theorem Inv.initPhase3 {s : State} (h : Inv s) (tbl : Fin 7 → BaudEntry) : Inv (initPhase3 tbl s) := by
  obtain ⟨hexcl, hsleep, -⟩ := h.handshake
  obtain ⟨x, hx⟩ := initPhase3_eq tbl s
  rw [hx]
  exact ((h.setCfg x).setHpt ⟨hexcl, hsleep, by simp, by simp, by simp⟩).answerOk []

/-- START is taken by an idle port, so no INIT waits on the request it withdraws. -/
theorem Inv.start {s : State} (h : Inv s) (hidle : s.hpt.hp = .idle) :
    Inv (s.setMc { s.mc with initRq := false }) := by
  obtain ⟨hexcl, hsleep, hwait, -, hbaud⟩ := h.handshake
  exact h.setMc ⟨hexcl, hsleep, hwait, by simp [hidle], hbaud⟩

theorem Inv.ackWake {s : State} (h : Inv s) (hsleepRq : s.mc.sleepRq = false) :
    Inv (s.setMc { s.mc with slak := false }) := by
  obtain ⟨-, -, hwait, hinit, hbaud⟩ := h.handshake
  exact h.setMc
    ⟨.inl rfl, fun _ => hsleepRq, hwait, fun hp => (hinit hp).imp_left fun _ => rfl, hbaud⟩

theorem Inv.ackInit {s : State} (h : Inv s) (hslak : s.mc.slak = false) :
    Inv (s.setMc { s.mc with inak := true }) := by
  obtain ⟨-, hrest⟩ := h.handshake
  exact h.setMc ⟨.inl hslak, hrest⟩

theorem Inv.ackRun {s : State} (h : Inv s) : Inv (s.setMc { s.mc with inak := false }) := by
  obtain ⟨-, hrest⟩ := h.handshake
  exact h.setMc ⟨.inr rfl, hrest⟩

/-! Reset (R43, R301). -/

@[simp] theorem resetWith_mf (d : ResetDraw) (par : Params) (m : MbIdx) :
    (State.resetWith d par).mf[m] = MbFlags.reset := by
  fin_cases m <;> rfl

/-- R43: both FIFOs are empty; what their slots hold is drawn. -/
theorem resetTurn_fifo_empty (d : ResetDraw) (s : State) (f : FifoIdx) :
    (resetTurn d s).fifo[f].fmp = 0 ∧ (resetTurn d s).fifo[f].full = false ∧
      (resetTurn d s).fifo[f].fovr = false ∧ (resetTurn d s).fifo[f].head = 0 := by
  fin_cases f <;> exact ⟨rfl, rfl, rfl, rfl⟩

@[simp] theorem resetWith_vl_valid (d : ResetDraw) (par : Params) (v : VecIdx) :
    (State.resetWith d par).vl[v].valid = false := by
  fin_cases v <;> rfl

/-- R43: nothing is enabled after a reset, so every line is low. -/
theorem irq_resetTurn (d : ResetDraw) (s : State) (v : VecIdx) : irq (resetTurn d s) v = false := by
  have hen : (resetTurn d s).ntf.en = 0 := rfl
  have herrie : (resetTurn d s).ntf.errie = false := rfl
  simp [irq, irqTx, irqFifo, irqErr, txEnable, enabled, hen, herrie]

/-- Whatever is recorded on the outputs, the state clauses hold after a reset. -/
theorem inv_resetTurn (d : ResetDraw) {s : State} (hout : OutputInv s) : Inv (resetTurn d s) := by
  have htme (m : MbIdx) : (resetTurn d s).mf[m] = MbFlags.reset := resetWith_mf d s.par m
  have hempty {m : MbIdx} (h : (resetTurn d s).mf[m].tme = false) : False := by
    rw [htme] at h
    exact Bool.false_ne_true h.symm
  refine ⟨⟨fun m => ⟨fun h => (hempty h).elim, nofun⟩, List.nodup_nil⟩,
    ⟨.inr rfl, nofun, nofun, nofun, fun h => absurd rfl h⟩, fun m => ?_, fun m h => (hempty h).elim, fun f => ?_,
    fun v h => ?_, nofun, hout⟩
  · rw [htme]
    exact ⟨rfl, nofun⟩
  · rw [fifoInv_iff, resetTurn_fifoList]
    exact nofun
  · exact absurd ((resetWith_vl_valid d s.par v).symm.trans h) Bool.false_ne_true

theorem inv_resetWith (d : ResetDraw) (par : Params) : Inv (State.resetWith d par) :=
  inv_resetTurn d (s := State.resetWith d par) ⟨nofun, nofun⟩

/-! Every step keeps the invariant. -/

/-- An operation an idle port carries out keeps the invariant. -/
theorem Inv.opEffect {s t : State} (h : Inv s) (hidle : s.hpt.hp = .idle) (heff : OpEffect s t) : Inv t := by
  cases heff with
  | refused st => exact h.answer fun _ => rfl
  | queried ws => exact h.answerOk ws
  | suspended opMode baud pol hbaud => exact h.initPhase1 opMode pol hbaud
  | started => exact (h.start hidle).answerOk []
  | filtered x => exact (h.setFlt x).answerOk []
  | notified x => exact (h.setNtf x).answerOk []
  | requested x ws hempty hgood =>
    obtain ⟨hcode, -⟩ := code_of_anyEmpty s hempty
    exact (h.loadAndRequest hcode hgood).answerOk ws
  | received f hpending => exact (h.setFifo (fifoInv_releaseSlot (h.fifo f) hpending)).answerOk _
  | entered v a snap ws hfits => exact ((h.setErr h.err).setVl fun _ => hfits).answerOk ws
  | returned v => exact (h.vectorReturn v).answerOk []

theorem Inv.hostEffect {s t : State} (h : Inv s) (heff : HostEffect s t) : Inv t := by
  cases heff with
  | waited => exact h
  | took rest hidle heff => exact (h.setPort rest).opEffect hidle heff
  | phase2 hp hslak => exact h.initPhase2 hp hslak
  | phase3 => exact h.initPhase3 Config.baudTable

theorem Inv.agentTurn {s : State} (h : Inv s) (a : AgentStep) : Inv (agentTurn a s) := by
  rcases agentTurn_cases a s with he | ⟨hen, he⟩
  · rwa [he]
  · rw [he]
    cases a with
    | ackWake =>
      obtain ⟨hsleepRq, -⟩ : s.mc.sleepRq = false ∧ s.mc.slak = true := by simpa [agentEnabled] using hen
      exact h.ackWake hsleepRq
    | ackInit =>
      obtain ⟨-, hslak⟩ : (s.mc.initRq = true ∧ s.mc.inak = false) ∧ s.mc.slak = false := by
        simpa [agentEnabled] using hen
      exact h.ackInit hslak
    | ackRun => exact h.ackRun
    | txComplete m o ts pad =>
      obtain ⟨⟨⟨-, hpending⟩, -⟩, -⟩ : ((mode s = .normal ∧ s.mf[m].tme = false) ∧ mayComplete s m = true) ∧
          outcomeAllowed s o = true := by simpa [agentEnabled] using hen
      exact h.complete o ts pad hpending
    | busRx ide rtr id dlc payload ts =>
      obtain ⟨⟨-, hdlc⟩, -⟩ : (mode s = .normal ∧ dlc.toNat ≤ 8) ∧ idInRange ide id = true := by
        simpa [agentEnabled] using hen
      exact h.deliver ts (goodFrame_busFrame ide rtr id dlc payload hdlc)
    | errWarn => exact h.setErr h.err
    | errPassive => exact h.setErr h.err
    | errBusOff => exact h.setErr h.err
    | errBusErr c => exact h.setErr fun _ => by simpa [agentEnabled] using hen

end Sys2Proof.Machine

section

open Sys2Proof Sys2Proof.Machine

/-- Settles O59, turn by turn. -/
theorem everyStepKeepsTheInvariant : Obligations.EveryStepKeepsTheInvariant := fun _ _ hs h =>
  step_keeps (P := Inv) (fun _ r hs => hs.setSched r) (fun hs heff => hs.hostEffect heff) (fun a _ hs => hs.agentTurn a)
    (fun d _ hs => inv_resetTurn d hs.output) hs h

/-- Settles O58: the clauses read no element the reset leaves unspecified. -/
theorem invariantHoldsAfterReset : Obligations.InvariantHoldsAfterReset :=
  ⟨inv_resetWith, inv_resetWith _ _⟩

/-- Settles O56, from the values of `State.resetWith` at every index. -/
theorem resetGivesTheTableValues : Obligations.ResetGivesTheTableValues := by
  intro s d r hs
  have hvl (v : VecIdx) := resetWith_vl_valid d s.par v
  have hmf (m : MbIdx) := resetWith_mf d s.par m
  refine ⟨resetTurn d (s.setSched r), step_of_reset hs, rfl, rfl, hmf, rfl, resetTurn_fifo_empty d _, rfl, rfl,
    rfl, rfl, rfl, rfl, rfl, fun k => ?_, rfl, hvl, irq_resetTurn d _, rfl⟩
  exact Vector.getElem_replicate _

end

/-! PROOFS of the statements about the host port's transactions (20_memory.md). First what an idle port does with a
whole transaction and what each query answers; then the statements. -/

namespace Sys2Proof.Machine

/-! The idle port (R61, R65). -/

theorem hostTurn_of_idle {s : State} (h : s.hpt.hp = .idle) : hostTurn s = acceptTransaction s := by
  simp only [hostTurn, h]

theorem acceptTransaction_of_decode_ok {s : State} {i : Instr} {rest : List Word} (h : decode s.port = .ok i rest) :
    acceptTransaction s = exec i (s.setPort rest) := by
  simp only [acceptTransaction, h]

/-! The well-formed queries (R67, R210 to R219): each answers its words and writes nothing. -/

theorem mbIdx_of_lt {index : BitVec 2} (h : index.toNat < 3) : mbIdx index = some ⟨index.toNat, h⟩ := dif_pos h

theorem bankIdx_of_lt {bank : BitVec 4} (h : bank.toNat < 14) : bankIdx bank = some ⟨bank.toNat, h⟩ := dif_pos h

theorem exec_freeCount (s : State) : exec (.freeCount 0) s = returnOk [countWord (freeCount s)] s := rfl

theorem exec_mboxPending {index : BitVec 2} (h : index.toNat < 3) (s : State) :
    exec (.mboxPending index 0) s = returnOk [bitAt 0 (s.mf[index.toNat]'h).rqcp] s := by
  simp [exec, execMboxPending, mbIdx_of_lt h]

theorem exec_fifoCount (fifo : BitVec 1) (s : State) :
    exec (.fifoCount fifo 0) s = returnOk [fieldAt 0 s.fifo[fifoIdx fifo].fmp] s := rfl

theorem exec_rdCfg (s : State) : exec (.rdCfg 0) s = returnOk [cfgWord0 s.cfg, cfgWord1 s.cfg] s := rfl

theorem exec_rdMsr (s : State) : exec (.rdMsr 0) s = returnOk [msrWord s.mc s.flt.finit] s := rfl

theorem exec_rdTsr (s : State) : exec (.rdTsr 0) s = returnOk [tsrWord (code s) s.mf] s := rfl

theorem exec_rdRfr (fifo : BitVec 1) (s : State) :
    exec (.rdRfr fifo 0) s = returnOk [rfrWord s.fifo[fifoIdx fifo]] s := rfl

theorem exec_rdEsr (s : State) : exec (.rdEsr 0) s = returnOk [esrWord s.err] s := rfl

theorem exec_rdIer (s : State) : exec (.rdIer 0) s = returnOk [ierWord s.ntf] s := rfl

theorem exec_rdFbank {bank : BitVec 4} (h : bank.toNat < 14) (s : State) :
    exec (.rdFbank bank 0) s =
      returnOk [fbankWord s.flt ⟨bank.toNat, h⟩, s.flt.fr1[bank.toNat], s.flt.fr2[bank.toNat]] s := by
  simp [exec, execRdFbank, bankIdx_of_lt h]

/-- Words computed from the state that do not see the answers already given. -/
def IgnoresAnswers (f : State → List Word) : Prop := ∀ s st ws, f (s.answer st ws) = f s

/-- In every state the operation answers OK with the words `f` computes, and does nothing else. -/
def OnlyReads (i : Instr) (f : State → List Word) : Prop := ∀ s, exec i s = returnOk (f s) s

/-- R67: every well-formed query only reads, and no query reads the record of answers. -/
theorem query_onlyReads {i : Instr} (hq : isQuery i.op = true) (hwf : i.WellFormed) :
    ∃ f, OnlyReads i f ∧ IgnoresAnswers f := by
  cases i with
  | freeCount rsvd =>
    obtain rfl : rsvd = 0 := eq_of_beq hwf
    exact ⟨_, exec_freeCount, fun _ _ _ => rfl⟩
  | mboxPending index rsvd =>
    obtain ⟨rfl, hindex⟩ : rsvd = 0 ∧ index ≠ 3 := by simpa [Instr.WellFormed, Instr.wellFormed] using hwf
    have hlt : index.toNat < 3 := by bv_omega
    exact ⟨_, exec_mboxPending hlt, fun _ _ _ => rfl⟩
  | fifoCount fifo rsvd =>
    obtain rfl : rsvd = 0 := eq_of_beq hwf
    exact ⟨_, exec_fifoCount fifo, fun _ _ _ => rfl⟩
  | rdCfg rsvd =>
    obtain rfl : rsvd = 0 := eq_of_beq hwf
    exact ⟨_, exec_rdCfg, fun _ _ _ => rfl⟩
  | rdMsr rsvd =>
    obtain rfl : rsvd = 0 := eq_of_beq hwf
    exact ⟨_, exec_rdMsr, fun _ _ _ => rfl⟩
  | rdTsr rsvd =>
    obtain rfl : rsvd = 0 := eq_of_beq hwf
    exact ⟨_, exec_rdTsr, fun _ _ _ => rfl⟩
  | rdRfr fifo rsvd =>
    obtain rfl : rsvd = 0 := eq_of_beq hwf
    exact ⟨_, exec_rdRfr fifo, fun _ _ _ => rfl⟩
  | rdEsr rsvd =>
    obtain rfl : rsvd = 0 := eq_of_beq hwf
    exact ⟨_, exec_rdEsr, fun _ _ _ => rfl⟩
  | rdIer rsvd =>
    obtain rfl : rsvd = 0 := eq_of_beq hwf
    exact ⟨_, exec_rdIer, fun _ _ _ => rfl⟩
  | rdFbank bank rsvd =>
    obtain ⟨rfl, hlt⟩ : rsvd = 0 ∧ bank.toNat < 14 := by simpa [Instr.WellFormed, Instr.wellFormed] using hwf
    exact ⟨_, exec_rdFbank hlt, fun _ _ _ => rfl⟩
  | init | start | finitEnter | finitExit | cfgFilter | transmit | receive | notifyEn | notifyDis | vecTx | vecRx0
  | vecRx1Sce | vecDone => exact absurd hq Bool.false_ne_true

end Sys2Proof.Machine

section

open Sys2Proof Sys2Proof.Machine

/-- Settles O43: the second query computes its words from a state that differs in the record of answers alone. -/
theorem queriesAreRepeatable : Obligations.QueriesAreRepeatable := by
  intro i s hq hwf
  obtain ⟨f, hreads, hignores⟩ := query_onlyReads hq hwf
  refine ⟨f s, hreads s, ?_⟩
  calc exec i (s.answer .ok (f s))
    _ = returnOk (f (s.answer .ok (f s))) (s.answer .ok (f s)) := hreads _
    _ = returnOk (f s) (s.answer .ok (f s)) := by rw [hignores]

/-- Settles O6: the turn is the host port's, the port is idle, and the words decode. -/
theorem stepRunsTheDecodedOperation : Obligations.StepRunsTheDecodedOperation := by
  intro s u i rest hmoves hidle hdecode
  calc step s
    _ = hostTurn u := step_of_hostMoves s u hmoves
    _ = acceptTransaction u := hostTurn_of_idle hidle
    _ = exec i (u.setPort rest) := acceptTransaction_of_decode_ok hdecode

end

/-! PROOFS of the statements about the encoding (30_encoding.md). First what the decoder reads from each part of a
transaction and how its words are put back, the layouts of identifiers and of the filter image, and what an operation
answers; then the statements. -/

namespace Sys2Proof

open Machine (fieldAt bitAt fieldOf bitOf)

/-! The command word (R80 to R90). -/

/-- R80: the opcode stands above bit 23, so a field below it is read from the fields alone. -/
theorem fieldOf_commandWord (i : Instr) {lo n : Nat} (h : lo + n ≤ 24) :
    fieldOf (commandWord i) lo n = fieldOf (fieldsWord i) lo n := by
  rw [commandWord, Machine.fieldOf_or, Machine.fieldOf_fieldAt_disjoint _ _ _ _ (.inr h), BitVec.zero_or]

theorem bitOf_commandWord (i : Instr) {k : Nat} (h : k < 24) : bitOf (commandWord i) k = bitOf (fieldsWord i) k := by
  rw [commandWord, Machine.bitOf_or, Machine.bitOf_fieldAt_outside _ _ _ (.inl h), Bool.false_or]

/-- `fieldAt_join` for a second field whose position is written as a number of its own. -/
theorem fieldAt_join_of_eq (w : Word) {lo n mid : Nat} (k : Nat) (h : mid = lo + n) :
    fieldAt lo (fieldOf w lo n) ||| fieldAt mid (fieldOf w mid k) = fieldAt lo (fieldOf w lo (n + k)) := by
  subst h
  exact fieldAt_join w lo n k

/-- R82 to R90: in every format the fields cover bits 23 to 0 without a gap, so put back they are those bits. -/
theorem fieldsWord_assemble (op : Op) (cw w0 w1 w2 : Word) :
    fieldsWord (assemble op cw w0 w1 w2) = fieldAt 0 (fieldOf cw 0 24) := by
  cases op with
  | start | finitEnter | finitExit | freeCount | vecTx | vecRx0 | vecRx1Sce | rdCfg | rdMsr | rdTsr | rdEsr | rdIer =>
    rfl
  | receive | fifoCount | rdRfr => exact fieldAt_join cw 0 1 23
  | mboxPending | vecDone => exact fieldAt_join cw 0 2 22
  | notifyEn | notifyDis => exact fieldAt_join cw 0 5 19
  | rdFbank => exact fieldAt_join cw 0 4 20
  | init | cfgFilter | transmit => simp [assemble, fieldsWord, bitAt_bitOf, fieldAt_join_of_eq]

/-- R80: the selected row's opcode and the fields read from a command word make up that word. -/
theorem commandWord_assemble {op : Op} {cw : Word} (h : opOf cw = some op) (w0 w1 w2 : Word) :
    commandWord (assemble op cw w0 w1 w2) = cw := by
  calc commandWord (assemble op cw w0 w1 w2)
    _ = fieldAt 24 (fieldOf cw 24 8) ||| fieldAt 0 (fieldOf cw 0 24) := by
      rw [commandWord, assemble_op, fieldsWord_assemble, opcode_of_opOf op cw h, opcodeByte]
    _ = fieldAt 0 (fieldOf cw 0 24) ||| fieldAt 24 (fieldOf cw 24 8) := BitVec.or_comm _ _
    _ = fieldAt 0 (fieldOf cw 0 32) := fieldAt_join cw 0 24 8
    _ = cw := fieldAt_whole cw

/-! The operand words (R84, R85, R88). -/

theorem length_operandWords (i : Instr) : (operandWords i).length = i.op.row.nIn := by
  cases i <;> rfl

theorem nIn_le_three (op : Op) : op.row.nIn ≤ 3 := by
  cases op <;> decide

/-- An operation keeps as many of the words read as its row takes. -/
theorem operandWords_assemble (op : Op) (cw w0 w1 w2 : Word) :
    operandWords (assemble op cw w0 w1 w2) = [w0, w1, w2].take op.row.nIn := by
  cases op <;> rfl

/-- The first words of a list, read one by one with a default. -/
theorem take_getD_three {n : Nat} (ws : List Word) (h3 : n ≤ 3) (hlen : n ≤ ws.length) :
    [ws.getD 0 0, ws.getD 1 0, ws.getD 2 0].take n = ws.take n := by
  refine List.ext_getElem (by simp; omega) fun k hk _ => ?_
  have hkn : k < n := by simp at hk; omega
  obtain rfl | rfl | rfl : k = 0 ∨ k = 1 ∨ k = 2 := by omega
  all_goals simp [show _ < ws.length from hkn.trans_le hlen]

/-- R80 to R90: every field read back from an operation's command word and operand words is the operation's own. -/
theorem assemble_encode (i : Instr) (rest : List Word) :
    assemble i.op (commandWord i) ((operandWords i ++ rest).getD 0 0) ((operandWords i ++ rest).getD 1 0)
      ((operandWords i ++ rest).getD 2 0) = i := by
  cases i with
  | start | finitEnter | finitExit | freeCount | vecTx | vecRx0 | vecRx1Sce | rdCfg | rdMsr | rdTsr | rdEsr | rdIer =>
    simp [Instr.op, assemble, fieldOf_commandWord, fieldsWord]
  | receive | fifoCount | rdRfr | mboxPending | vecDone | notifyEn | notifyDis | rdFbank =>
    simp [Instr.op, assemble, operandWords, fieldOf_commandWord, fieldsWord]
  | init | cfgFilter | transmit =>
    simp [Instr.op, assemble, operandWords, fieldOf_commandWord, bitOf_commandWord, fieldsWord]

/-! The decoder (R101, R102). -/

/-- R102: which word lists begin with a whole transaction, what it is, and what it leaves. -/
theorem decode_eq_ok_iff {ws rest : List Word} {i : Instr} :
    decode ws = .ok i rest ↔
      ∃ cw tl op, ws = cw :: tl ∧ opOf cw = some op ∧ op.row.nIn ≤ tl.length ∧
        assemble op cw (tl.getD 0 0) (tl.getD 1 0) (tl.getD 2 0) = i ∧ tl.drop op.row.nIn = rest := by
  cases ws with
  | nil => simp [decode]
  | cons cw tl =>
    cases hop : opOf cw with
    | none => simp [decode, hop]
    | some op =>
      by_cases hlen : tl.length < op.row.nIn
      · simp [decode, hop, hlen]
      · simp [decode, hop, hlen, Nat.not_lt.1 hlen]

theorem decode_eq_unknownOpcode_iff (cw : Word) (ws : List Word) :
    decode (cw :: ws) = .unknownOpcode ws ↔ opOf cw = none := by
  cases hop : opOf cw with
  | none => simp [decode, hop]
  | some op =>
    simp only [decode, hop, reduceCtorEq, iff_false]
    split <;> exact Decoded.noConfusion

/-- R101: no operation is selected when no row of the map has the word's opcode. -/
theorem opOf_eq_none_iff (cw : Word) : opOf cw = none ↔ ∀ op ∈ allOps, op.row.opcode ≠ opcodeByte cw := by
  simp [opOf, List.find?_eq_none]

theorem toNat_opcodeByte (cw : Word) : (opcodeByte cw).toNat = cw.toNat / 2 ^ 24 := by
  have := cw.isLt
  simp only [opcodeByte, fieldOf, BitVec.extractLsb'_toNat, Nat.shiftRight_eq_div_pow]
  omega

/-- R101: the bytes that are no opcode of the map. -/
theorem opcode_unused_iff (b : BitVec 8) :
    (∀ op ∈ allOps, op.row.opcode ≠ b) ↔
      (b.toNat = 0 ∨ (0x0D ≤ b.toNat ∧ b.toNat ≤ 0x0F) ∨ (0x14 ≤ b.toNat ∧ b.toNat ≤ 0x1F) ∨ 0x27 ≤ b.toNat) := by
  have hb := b.isLt
  simp only [allOps, List.forall_mem_cons, List.not_mem_nil, false_implies, implies_true, and_true, Op.row, ne_eq,
    BitVec.toNat_eq, BitVec.reduceToNat]
  omega

/-- R101: the command words that select no operation, by their opcode byte. -/
theorem decode_eq_unknownOpcode_iff_ranges (cw : Word) (ws : List Word) :
    decode (cw :: ws) = .unknownOpcode ws ↔
      (cw.toNat / 2 ^ 24 = 0 ∨ (0x0D ≤ cw.toNat / 2 ^ 24 ∧ cw.toNat / 2 ^ 24 ≤ 0x0F) ∨
        (0x14 ≤ cw.toNat / 2 ^ 24 ∧ cw.toNat / 2 ^ 24 ≤ 0x1F) ∨ 0x27 ≤ cw.toNat / 2 ^ 24) := by
  rw [decode_eq_unknownOpcode_iff, opOf_eq_none_iff, opcode_unused_iff, toNat_opcodeByte]

/-! Decoding and encoding (R80, R102). -/

/-- The command word selects the row, the row takes its operand words, and every field reads back. -/
theorem decode_encode (i : Instr) (rest : List Word) : decode (encode i ++ rest) = .ok i rest :=
  decode_eq_ok_iff.2 ⟨commandWord i, operandWords i ++ rest, i.op, rfl, opOf_commandWord i,
    by simp [length_operandWords], assemble_encode i rest, List.drop_left' (length_operandWords i)⟩

/-- The command word is its opcode and fields put back, and the operand words are the first words read. -/
theorem encode_of_decode {ws rest : List Word} {i : Instr} (h : decode ws = .ok i rest) : encode i ++ rest = ws := by
  obtain ⟨cw, tl, op, rfl, hop, hlen, rfl, rfl⟩ := decode_eq_ok_iff.1 h
  rw [encode, commandWord_assemble hop, operandWords_assemble, take_getD_three tl (nIn_le_three op) hlen,
    List.cons_append, List.take_append_drop]

/-- A word list that is an operation's encoding decodes to it. -/
theorem decode_of_encode_eq {i : Instr} {ws : List Word} (h : encode i = ws) : decode ws = .ok i [] := by
  have hdecode := decode_encode i []
  rwa [List.append_nil, h] at hdecode

end Sys2Proof

namespace Sys2Proof.Machine

/-- R101, R102: the idle port takes the command word of an unknown opcode and answers ERR_OPCODE. -/
theorem acceptTransaction_of_decode_unknownOpcode {s : State} {rest : List Word}
    (h : decode s.port = .unknownOpcode rest) : acceptTransaction s = raise .errOpcode (s.setPort rest) := by
  simp only [acceptTransaction, h]

/-! Identifiers (R91). -/

/-- A field put back is the whole word when every bit above it is 0. -/
theorem fieldAt_low_of_high_zero {w : Word} {n k : Nat} (hnk : n + k = 32) (h : fieldOf w n k = 0) :
    fieldAt 0 (fieldOf w 0 n) = w := by
  have hjoin := fieldAt_join_of_eq w (lo := 0) (n := n) (mid := n) k (Nat.zero_add n).symm
  have hzero : fieldAt n (0 : BitVec k) = 0#32 := by simp [fieldAt]
  rw [h, hzero, BitVec.or_zero, hnk] at hjoin
  exact hjoin.trans (fieldAt_whole w)

theorem idJoin_standard (stid : BitVec 11) (exid : BitVec 18) : idJoin false stid exid = stid.setWidth 32 := by
  simp [idJoin, fieldAt]

/-- An extended identifier is its base part above its 18 extension bits. -/
theorem idJoin_extended (stid : BitVec 11) (exid : BitVec 18) :
    idJoin true stid exid = (stid ++ exid).setWidth 32 := by
  refine word_ext fun i hi => ?_
  rw [idJoin, if_pos rfl, bitOf_or, bitOf_fieldAt _ _ _ hi, bitOf_fieldAt _ _ _ hi, bitOf,
    BitVec.getLsbD_setWidth, BitVec.getLsbD_append]
  by_cases hlow : i < 18
  · simp [hi, hlow, Nat.not_le.2 hlow]
  · simp [hi, hlow, Nat.not_lt.1 hlow]

/-- R91: splitting and joining gives back every identifier in range. -/
theorem idJoin_idSplit {ide : Bool} {w : Word} (h : idInRange ide w = true) :
    idJoin ide (idSplit ide w).1 (idSplit ide w).2 = w := by
  cases ide with
  | false => exact fieldAt_low_of_high_zero (k := 21) rfl (eq_of_beq h)
  | true =>
    calc idJoin true (idSplit true w).1 (idSplit true w).2
      _ = fieldAt 0 (fieldOf w 0 18) ||| fieldAt 18 (fieldOf w 18 11) := BitVec.or_comm _ _
      _ = fieldAt 0 (fieldOf w 0 29) := fieldAt_join w 0 18 11
      _ = w := fieldAt_low_of_high_zero (k := 3) rfl (eq_of_beq h)

/-! The filter image (R94, R136). -/

/-- R94: bit 29 of the image is 0; the fields of a frame stand on the other sides of it. -/
theorem image32_layout (fr : Frame) :
    bitOf (image32 fr) 31 = fr.ide ∧ bitOf (image32 fr) 30 = fr.rtr ∧ bitOf (image32 fr) 29 = false ∧
      fieldOf (image32 fr) 27 2 = fr.exid.extractLsb' 16 2 ∧ fieldOf (image32 fr) 16 11 = fr.stid ∧
      fieldOf (image32 fr) 0 16 = fr.exid.extractLsb' 0 16 := by
  simp [image32]

/-- The 16-bit image is the high half of the 32-bit one. -/
theorem getLsbD_image16 (fr : Frame) {i : Nat} (h : i < 16) :
    (image16 fr).getLsbD i = (image32 fr).getLsbD (16 + i) := by
  rw [image16, getLsbD_fieldOf, decide_eq_true h, Bool.true_and, bitOf]

/-- Two words agree under a mask when they agree at every bit the mask selects. -/
theorem and_mask_eq_iff {w : Nat} (x y mask : BitVec w) :
    x &&& mask = y &&& mask ↔ ∀ i, i < w → mask.getLsbD i = true → x.getLsbD i = y.getLsbD i := by
  constructor
  · intro h i _ hmask
    simpa [hmask] using congrArg (BitVec.getLsbD · i) h
  · refine fun h => BitVec.eq_of_getLsbD_eq fun i hi => ?_
    cases hmask : mask.getLsbD i with
    | false => simp [hmask]
    | true => simp [hmask, h i hi hmask]

/-! R136, entry form by entry form. -/

theorem hits_mask32_iff (id mask : Word) (fr : Frame) :
    hits (.mask32 id mask) fr = true ↔
      ∀ i, i < 32 → mask.getLsbD i = true → (image32 fr).getLsbD i = id.getLsbD i :=
  beq_iff_eq.trans (and_mask_eq_iff _ id mask)

theorem hits_list32_iff (id : Word) (fr : Frame) :
    hits (.list32 id) fr = true ↔ ∀ i, i < 32 → (image32 fr).getLsbD i = id.getLsbD i :=
  beq_iff_eq.trans BitVec.eq_of_getLsbD_eq_iff

theorem hits_mask16_iff (id mask : BitVec 16) (fr : Frame) :
    hits (.mask16 id mask) fr = true ↔
      ∀ i, i < 16 → mask.getLsbD i = true → (image32 fr).getLsbD (16 + i) = id.getLsbD i := by
  refine (beq_iff_eq.trans (and_mask_eq_iff _ id mask)).trans (forall₂_congr fun i hi => ?_)
  rw [getLsbD_image16 fr hi]

theorem hits_list16_iff (id : BitVec 16) (fr : Frame) :
    hits (.list16 id) fr = true ↔ ∀ i, i < 16 → (image32 fr).getLsbD (16 + i) = id.getLsbD i := by
  refine (beq_iff_eq.trans BitVec.eq_of_getLsbD_eq_iff).trans (forall₂_congr fun i hi => ?_)
  rw [getLsbD_image16 fr hi]

/-! What an operation answers (R260, R261). -/

/-- What the result of an operation of row `op` is when the table of R260 gives `o`: the refusal and nothing else, or
OK with the row's number of result words, or, for INIT, no answer yet. -/
inductive AnswersBy (op : Op) (s : State) : Option Status → Result → Prop where
  /-- R260: the status alone. -/
  | refused {st : Status} (hst : st ≠ .ok) : AnswersBy op s (some st) (raise st s)
  /-- R97: OK with the result words of the row. -/
  | accepted {u : State} {ws : List Word} (hop : op ≠ .init) (hlen : ws.length = op.row.nOut)
      (hans : u.answers = s.answers) : AnswersBy op s none (returnOk ws u)
  /-- R110: INIT answers in its last phase. -/
  | suspended {u : State} (hop : op = .init) (hans : u.answers = s.answers) : AnswersBy op s none (.next u)

/-- A check of the table that the operation makes too. -/
theorem AnswersBy.check {op : Op} {s : State} {c : Prop} [Decidable c] {st : Status} {o : Option Status} {r : Result}
    (hst : st ≠ .ok) (h : AnswersBy op s o r) :
    AnswersBy op s (if c then some st else o) (if c then raise st s else r) := by
  split
  · exact .refused hst
  · exact h

/-- A condition the table and the operation require. -/
theorem AnswersBy.require {op : Op} {s : State} {c : Prop} [Decidable c] {st : Status} {o : Option Status} {r : Result}
    (hst : st ≠ .ok) (h : AnswersBy op s o r) :
    AnswersBy op s (if c then o else some st) (if c then r else raise st s) := by
  split
  · exact h
  · exact .refused hst

/-! Ill-formed operations (R101): the range checks come first. -/

theorem kindIdx_eq_none {kind : BitVec 5} (h : 19 ≤ kind.toNat) : kindIdx kind = none := dif_neg h.not_gt

theorem bankIdx_eq_none {bank : BitVec 4} (h : 14 ≤ bank.toNat) : bankIdx bank = none := dif_neg h.not_gt

theorem vecIdx_of_lt {vector : BitVec 2} (h : vector.toNat < 3) : vecIdx vector = some ⟨vector.toNat, h⟩ := dif_pos h

theorem kindIdx_of_lt {kind : BitVec 5} (h : kind.toNat < 19) : kindIdx kind = some ⟨kind.toNat, h⟩ := dif_pos h

/-- A check in front of what refuses with the same status. -/
theorem ite_raise_eq {c : Prop} [Decidable c] {st : Status} {s : State} {r : Result} (h : ¬ c → r = raise st s) :
    (if c then raise st s else r) = raise st s := by
  split
  · rfl
  · exact h ‹_›

/-- R260, R261: every ill-formed operation is refused with ERR_RANGE, before its state is looked at. -/
theorem exec_of_illFormed {i : Instr} (h : i.wellFormed = false) (s : State) : exec i s = raise .errRange s := by
  cases i with
  | start | finitEnter | finitExit | receive | freeCount | fifoCount | vecTx | vecRx0 | vecRx1Sce | rdCfg | rdMsr
  | rdTsr | rdRfr | rdEsr | rdIer => exact if_pos (ne_of_beq_false h)
  | init lbkm silm baud ttcm abom awum art rflm txfp rsvd =>
    have hrange : rsvd = 0 → baud = 7 := by simpa [Instr.wellFormed] using h
    exact if_pos (or_iff_not_imp_left.2 fun hrsvd => hrange (not_not.1 hrsvd))
  | cfgFilter bank _ _ _ rsvd _ _ | rdFbank bank rsvd =>
    refine ite_raise_eq fun hrsvd => ?_
    have hbank : 14 ≤ bank.toNat := by simpa [Instr.wellFormed, not_not.1 hrsvd] using h
    rw [bankIdx_eq_none hbank]
  | transmit ide rtr dlc tgt rsvd w0 w1 w2 =>
    refine ite_raise_eq fun hrange => ite_raise_eq fun hid => ?_
    obtain ⟨rfl, hdlc⟩ : rsvd = 0 ∧ dlc.toNat ≤ 8 := by simpa using hrange
    have hwf : (Instr.transmit ide rtr dlc tgt 0 w0 w1 w2).wellFormed = true := by
      simpa [Instr.wellFormed, hdlc] using hid
    exact absurd (h.symm.trans hwf) Bool.false_ne_true
  | mboxPending index rsvd =>
    refine ite_raise_eq fun hrsvd => ?_
    obtain rfl : index = 3 := by simpa [Instr.wellFormed, not_not.1 hrsvd] using h
    rfl
  | vecDone vector rsvd =>
    refine ite_raise_eq fun hrsvd => ?_
    obtain rfl : vector = 3 := by simpa [Instr.wellFormed, not_not.1 hrsvd] using h
    rfl
  | notifyEn kind rsvd _ | notifyDis kind rsvd =>
    refine ite_raise_eq fun hrsvd => ?_
    have hkind : 18 < kind.toNat := by simpa [Instr.wellFormed, not_not.1 hrsvd] using h
    rw [kindIdx_eq_none hkind]

theorem refusalOf_of_illFormed {i : Instr} (h : i.wellFormed = false) (s : State) : refusalOf i s = some .errRange :=
  if_pos h

/-! Well-formed operations beside the queries, by what the state decides (R261). -/

theorem exec_init {baud : BitVec 3} (h : baud ≠ 7) (lbkm silm ttcm abom awum art rflm txfp : Bool) (s : State) :
    exec (.init lbkm silm baud ttcm abom awum art rflm txfp 0) s =
      .next (initPhase1 (packMode silm lbkm) baud (packPolicies ttcm abom awum art rflm txfp) s) :=
  if_neg (not_or.2 ⟨not_not.2 rfl, h⟩)

theorem exec_cfgFilter {bank : BitVec 4} (h : bank.toNat < 14) (fbm fsc ffa : Bool) (w0 w1 : Word) (s : State) :
    exec (.cfgFilter bank fbm fsc ffa 0 w0 w1) s =
      if s.flt.finit then returnOk [] (s.setFlt (configureBank ⟨bank.toNat, h⟩ fbm fsc ffa w0 w1 s.flt))
      else raise .errState s := by
  simp [exec, execCfgFilter, bankIdx_of_lt h]

theorem exec_transmit {ide : Bool} {dlc : BitVec 4} {w0 : Word} (hdlc : dlc.toNat ≤ 8) (hid : idInRange ide w0 = true)
    (rtr tgt : Bool) (w1 w2 : Word) (s : State) :
    exec (.transmit ide rtr dlc tgt 0 w0 w1 w2) s =
      if anyEmpty s = false then raise .failNoMailbox s
      else returnOk [countWord (code s).val] (loadAndRequest (code s) (mailboxOf ide rtr dlc tgt w0 w1 w2) s) := by
  simp [exec, execTransmit, hdlc, hid]

theorem exec_notifyEn {kind : BitVec 5} (h : kind.toNat < 19) (cb : Word) (s : State) :
    exec (.notifyEn kind 0 cb) s = returnOk [] (s.setNtf (enableKind ⟨kind.toNat, h⟩ cb s.ntf)) := by
  simp [exec, execNotifyEn, kindIdx_of_lt h]

theorem exec_notifyDis {kind : BitVec 5} (h : kind.toNat < 19) (s : State) :
    exec (.notifyDis kind 0) s = returnOk [] (s.setNtf (disableKind ⟨kind.toNat, h⟩ s.ntf)) := by
  simp [exec, execNotifyDis, kindIdx_of_lt h]

theorem exec_vecDone {vector : BitVec 2} (h : vector.toNat < 3) (s : State) :
    exec (.vecDone vector 0) s =
      if s.vl[(⟨vector.toNat, h⟩ : VecIdx)].valid then returnOk [] (vectorReturn ⟨vector.toNat, h⟩ s)
      else raise .errProtocol s := by
  simp [exec, execVecDone, vecIdx_of_lt h]

/-! The result words (R97 to R99). -/

theorem length_vecTxWords (m : MbIdx) (s : State) : (vecTxWords m s).length = 2 := by
  unfold vecTxWords
  split <;> rfl

/-- VEC_TX with no reserved bit set: past the check of its latch, two result words. -/
theorem answersBy_execVecTx (s : State) :
    AnswersBy .vecTx s (if s.vl[(0 : VecIdx)].valid then some .errProtocol else none) (execVecTx 0 s) := by
  refine .check nofun ?_
  split
  · exact .accepted nofun rfl rfl
  · exact .accepted nofun (length_vecTxWords _ s) rfl

/-- A vector entry answers two words. -/
theorem answersBy_vectorEntry {op : Op} (hop : op ≠ .init) (hout : op.row.nOut = 2) (v : VecIdx) (links : List Link)
    (s : State) : AnswersBy op s none (vectorEntry v links s) := by
  rcases vectorEntry_cases v links s with ⟨-, h⟩ | ⟨l, -, h⟩
  · rw [h]
    exact .accepted hop hout.symm rfl
  · rw [h]
    refine .accepted hop hout.symm ?_
    split <;> rfl

theorem vectorReturn_answers (v : VecIdx) (s : State) : (vectorReturn v s).answers = s.answers := by
  rw [vectorReturn, clearFlag_frame]
  rfl

/-- R260, R261: a well-formed operation answers as the state's part of the table says. -/
theorem answersBy_of_wellFormed {i : Instr} (h : i.WellFormed) (s : State) :
    AnswersBy i.op s (refusalOf i s) (exec i s) := by
  have hne : ¬ i.wellFormed = false := fun hfalse => Bool.false_ne_true (hfalse.symm.trans h)
  unfold refusalOf
  rw [if_neg hne]
  cases i with
  | init lbkm silm baud ttcm abom awum art rflm txfp rsvd =>
    obtain ⟨rfl, hbaud⟩ : rsvd = 0 ∧ baud ≠ 7 := by simpa [Instr.WellFormed, Instr.wellFormed] using h
    rw [exec_init hbaud]
    exact .suspended rfl rfl
  | cfgFilter bank fbm fsc ffa rsvd w0 w1 =>
    obtain ⟨rfl, hbank⟩ : rsvd = 0 ∧ bank.toNat < 14 := by simpa [Instr.WellFormed, Instr.wellFormed] using h
    rw [exec_cfgFilter hbank]
    exact .require nofun (.accepted nofun rfl rfl)
  | transmit ide rtr dlc tgt rsvd w0 w1 w2 =>
    obtain ⟨⟨rfl, hdlc⟩, hid⟩ : (rsvd = 0 ∧ dlc.toNat ≤ 8) ∧ idInRange ide w0 = true := by
      simpa [Instr.WellFormed, Instr.wellFormed] using h
    rw [exec_transmit hdlc hid]
    simp only [anyEmpty_eq_false_iff]
    exact .check nofun (.accepted nofun rfl rfl)
  | receive fifo rsvd =>
    obtain rfl : rsvd = 0 := eq_of_beq h
    exact .check nofun (.accepted nofun rfl rfl)
  | vecTx rsvd =>
    obtain rfl : rsvd = 0 := eq_of_beq h
    exact answersBy_execVecTx s
  | vecRx0 rsvd =>
    obtain rfl : rsvd = 0 := eq_of_beq h
    exact .check nofun (answersBy_vectorEntry (op := .vecRx0) nofun rfl 1 _ s)
  | vecRx1Sce rsvd =>
    obtain rfl : rsvd = 0 := eq_of_beq h
    exact .check nofun (answersBy_vectorEntry (op := .vecRx1Sce) nofun rfl 2 _ s)
  | vecDone vector rsvd =>
    obtain ⟨rfl, hvector⟩ : rsvd = 0 ∧ vector ≠ 3 := by simpa [Instr.WellFormed, Instr.wellFormed] using h
    have hlt : vector.toNat < 3 := by bv_omega
    rw [exec_vecDone hlt]
    simp only [vecIdx_of_lt hlt]
    exact .require nofun (.accepted nofun rfl (vectorReturn_answers _ s))
  | mboxPending index rsvd =>
    obtain ⟨rfl, hindex⟩ : rsvd = 0 ∧ index ≠ 3 := by simpa [Instr.WellFormed, Instr.wellFormed] using h
    have hlt : index.toNat < 3 := by bv_omega
    rw [exec_mboxPending hlt]
    exact .accepted nofun rfl rfl
  | notifyEn kind rsvd cb =>
    obtain ⟨rfl, hkind⟩ : rsvd = 0 ∧ kind.toNat ≤ 18 := by simpa [Instr.WellFormed, Instr.wellFormed] using h
    rw [exec_notifyEn (Nat.lt_succ_of_le hkind)]
    exact .accepted nofun rfl rfl
  | notifyDis kind rsvd =>
    obtain ⟨rfl, hkind⟩ : rsvd = 0 ∧ kind.toNat ≤ 18 := by simpa [Instr.WellFormed, Instr.wellFormed] using h
    rw [exec_notifyDis (Nat.lt_succ_of_le hkind)]
    exact .accepted nofun rfl rfl
  | rdFbank bank rsvd =>
    obtain ⟨rfl, hbank⟩ : rsvd = 0 ∧ bank.toNat < 14 := by simpa [Instr.WellFormed, Instr.wellFormed] using h
    rw [exec_rdFbank hbank]
    exact .accepted nofun rfl rfl
  | start rsvd | finitEnter rsvd | finitExit rsvd | freeCount rsvd | rdCfg rsvd | rdMsr rsvd | rdTsr rsvd
  | rdEsr rsvd | rdIer rsvd =>
    obtain rfl : rsvd = 0 := eq_of_beq h
    exact .accepted nofun rfl rfl
  | fifoCount fifo rsvd | rdRfr fifo rsvd =>
    obtain rfl : rsvd = 0 := eq_of_beq h
    exact .accepted nofun rfl rfl

/-- R260, R261: every operation answers as the table says. -/
theorem answersBy_exec (i : Instr) (s : State) : AnswersBy i.op s (refusalOf i s) (exec i s) := by
  cases hwf : i.wellFormed with
  | true => exact answersBy_of_wellFormed hwf s
  | false =>
    rw [exec_of_illFormed hwf, refusalOf_of_illFormed hwf]
    exact .refused nofun

end Sys2Proof.Machine

section

open Sys2Proof Sys2Proof.Machine

/-- Settles O1, by `decode_encode`. -/
theorem decodeReadsBackEveryEncoding : Obligations.DecodeReadsBackEveryEncoding := decode_encode

/-- Settles O2, by `encode_of_decode`. -/
theorem encodeWritesBackEveryDecoding : Obligations.EncodeWritesBackEveryDecoding :=
  fun _ _ _ h => encode_of_decode h

/-- Settles O4, from the map's opcodes and the idle port's answer to any other. -/
theorem unknownOpcodesConsumeOneWord : Obligations.UnknownOpcodesConsumeOneWord := by
  refine ⟨decode_eq_unknownOpcode_iff_ranges, fun cw ws s u hmoves hidle hport hdecode => ?_⟩
  calc step s
    _ = hostTurn u := step_of_hostMoves s u hmoves
    _ = acceptTransaction u := hostTurn_of_idle hidle
    _ = raise .errOpcode (u.setPort ws) := acceptTransaction_of_decode_unknownOpcode (hport ▸ hdecode)

/-- Settles O5, from the layout of `IdJoin` and its inverse in range. -/
theorem identifierSplitAndJoin : Obligations.IdentifierSplitAndJoin :=
  ⟨fun _ => ⟨rfl, rfl⟩, fun stid exid => ⟨idJoin_standard stid exid, idJoin_extended stid exid⟩,
    fun _ _ h => idJoin_idSplit h⟩

/-- Settles O7, from the three ways an operation answers by the table. -/
theorem refusalsFollowTheTable : Obligations.RefusalsFollowTheTable := by
  intro i s
  have hanswers := answersBy_exec i s
  generalize refusalOf i s = o at hanswers
  generalize hr : exec i s = r at hanswers
  cases hanswers with
  | refused hst => exact ⟨hst, rfl⟩
  | accepted hop hlen hans => exact ⟨_, rfl, fun hinit => absurd hinit hop, fun _ => ⟨_, hlen, by simp [hans]⟩⟩
  | suspended hop hans => exact ⟨_, rfl, fun _ => hans, fun hinit => absurd hop hinit⟩

/-- Settles O21, from the image's layout and the test of each entry form. -/
theorem entriesCompareTheMaskedBits : Obligations.EntriesCompareTheMaskedBits := by
  intro fr
  obtain ⟨hide, hrtr, hgap, hexidHigh, hstid, hexidLow⟩ := image32_layout fr
  exact ⟨⟨hide, hrtr, hgap, hexidHigh, hstid, hexidLow, rfl⟩, fun id mask => hits_mask32_iff id mask fr,
    fun id => hits_list32_iff id fr, fun id mask => hits_mask16_iff id mask fr, fun id => hits_list16_iff id fr⟩

/-- Settles O3: each list written out from the tables is the encoding of its operation. -/
theorem commandWordsOfTheTable : Obligations.CommandWordsOfTheTable := by
  refine ⟨?_, ?_, ?_, ?_, ?_, ?_, ?_, ?_, ?_⟩
  all_goals exact decode_of_encode_eq (by decide)

end

/-! PROOFS of the statements about mode control (40_mode_control.md). First the phases of INIT, START and the steps of
ModeEngine, one rule each; then what an agent's turn leaves alone, and how an INIT waits; then the statements. -/

namespace Sys2Proof.Machine

/-! The latched operands and the configuration phase P3 writes (R110, R113). -/

theorem packMode_bits (silm lbkm : Bool) :
    (packMode silm lbkm).getLsbD 0 = lbkm ∧ (packMode silm lbkm).getLsbD 1 = silm := by
  simp only [packMode, BitVec.getLsbD_append]
  simp

theorem packPolicies_bits (ttcm abom awum art rflm txfp : Bool) :
    (packPolicies ttcm abom awum art rflm txfp).getLsbD 0 = ttcm ∧
      (packPolicies ttcm abom awum art rflm txfp).getLsbD 1 = abom ∧
      (packPolicies ttcm abom awum art rflm txfp).getLsbD 2 = awum ∧
      (packPolicies ttcm abom awum art rflm txfp).getLsbD 3 = art ∧
      (packPolicies ttcm abom awum art rflm txfp).getLsbD 4 = rflm ∧
      (packPolicies ttcm abom awum art rflm txfp).getLsbD 5 = txfp := by
  simp only [packPolicies, BitVec.getLsbD_append]
  simp

/-- The configuration phase P3 makes of the latched operands `x`. -/
def latchedCfg (tbl : Fin 7 → BaudEntry) (x : HostPort) : Cfg :=
  { ttcm := x.hpPol.getLsbD 0
    abom := x.hpPol.getLsbD 1
    awum := x.hpPol.getLsbD 2
    art := x.hpPol.getLsbD 3
    rflm := x.hpPol.getLsbD 4
    txfp := x.hpPol.getLsbD 5
    ts1 := BitVec.ofNat 4 (btField (baudEntry tbl x.hpBaud).ts1)
    ts2 := BitVec.ofNat 3 (btField (baudEntry tbl x.hpBaud).ts2)
    brp := BitVec.ofNat 10 (btField (baudEntry tbl x.hpBaud).brp)
    silm := x.hpMode.getLsbD 1
    lbkm := x.hpMode.getLsbD 0 }

theorem initPhase3_eq_latchedCfg (tbl : Fin 7 → BaudEntry) (s : State) :
    initPhase3 tbl s = ((s.setCfg (latchedCfg tbl s.hpt)).setHpt { s.hpt with hp := .idle }).answer .ok [] := rfl

/-- R113: a number 1 to `2 ^ w`, minus one, fits a field of `w` bits. -/
theorem toNat_ofNat_btField {w v : Nat} (h : 1 ≤ v ∧ v ≤ 2 ^ w) : (BitVec.ofNat w (btField v)).toNat = v - 1 := by
  rw [BitVec.toNat_ofNat]
  exact Nat.mod_eq_of_lt (by unfold btField; omega)

/-- R113: the three timing fields hold the table's values minus one, with no wrap-around. -/
theorem latchedCfg_timing (tbl : Fin 7 → BaudEntry) {x : HostPort} (h : x.hpBaud.toNat < 7) :
    (latchedCfg tbl x).ts1.toNat = (tbl ⟨x.hpBaud.toNat, h⟩).ts1 - 1 ∧
      (latchedCfg tbl x).ts2.toNat = (tbl ⟨x.hpBaud.toNat, h⟩).ts2 - 1 ∧
      (latchedCfg tbl x).brp.toNat = (tbl ⟨x.hpBaud.toNat, h⟩).brp - 1 := by
  have hentry : baudEntry tbl x.hpBaud = tbl ⟨x.hpBaud.toNat, h⟩ := dif_pos h
  simp only [latchedCfg, hentry]
  exact ⟨toNat_ofNat_btField (tbl _).ts1_range, toNat_ofNat_btField (tbl _).ts2_range,
    toNat_ofNat_btField (tbl _).brp_range⟩

/-! START (R111). -/

theorem exec_start (s : State) : exec (.start 0) s = returnOk [] (s.setMc { s.mc with initRq := false }) := rfl

/-! The host's turn: an idle port at an operation's words, and a suspended INIT (R61, R110, R116). -/

theorem hostTurn_of_encoded {s : State} {i : Instr} {ws : List Word} (hidle : s.hpt.hp = .idle)
    (hport : s.port = encode i ++ ws) : hostTurn s = exec i (s.setPort ws) := by
  rw [hostTurn_of_idle hidle, acceptTransaction_of_decode_ok (hport ▸ decode_encode i ws)]

theorem hostTurn_of_sleepWait {s : State} (h : s.hpt.hp = .initWaitSleep) :
    hostTurn s = .next (resumeAtSleepWait s) := by
  simp only [hostTurn, h]

theorem hostTurn_of_initWait {s : State} (h : s.hpt.hp = .initWaitInit) :
    hostTurn s = .next (resumeAtInitWait s) := by
  simp only [hostTurn, h]

/-- R110: the first wait is over. -/
theorem hostTurn_of_awake {s : State} (hp : s.hpt.hp = .initWaitSleep) (hslak : s.mc.slak = false) :
    hostTurn s = .next (initPhase2 s) := by
  rw [hostTurn_of_sleepWait hp, resumeAtSleepWait, if_neg (by simp [hslak])]

/-- R110: the second wait is over. -/
theorem hostTurn_of_initAcknowledged {s : State} (hp : s.hpt.hp = .initWaitInit) (hinak : s.mc.inak = true) :
    hostTurn s = .next (initPhase3 Config.baudTable s) := by
  rw [hostTurn_of_initWait hp, resumeAtInitWait, if_pos hinak]

/-- R116: an INIT is suspended at a wait that ModeEngine's step `a` has yet to end. -/
inductive AwaitsAck (s : State) : AgentStep → Prop where
  /-- The first wait, in sleep. -/
  | wake (hp : s.hpt.hp = .initWaitSleep) (hslak : s.mc.slak = true) : AwaitsAck s .ackWake
  /-- The second wait, initialization not acknowledged. -/
  | init (hp : s.hpt.hp = .initWaitInit) (hinak : s.mc.inak = false) : AwaitsAck s .ackInit

/-- R116: while the wait lasts, the host's turn does nothing. -/
theorem AwaitsAck.hostTurn_eq {s : State} {a : AgentStep} (h : AwaitsAck s a) : hostTurn s = .next s := by
  cases h with
  | wake hp hslak => rw [hostTurn_of_sleepWait hp, resumeAtSleepWait, if_pos hslak]
  | init hp hinak => rw [hostTurn_of_initWait hp, resumeAtInitWait, if_neg (by simp [hinak])]

/-! The turns of ModeEngine (R112). -/

theorem agentTurn_ackWake (s : State) :
    agentTurn .ackWake s =
      if s.mc.sleepRq = false ∧ s.mc.slak = true then s.setMc { s.mc with slak := false } else s := by
  simp [agentTurn, agentEnabled, agentEffect]

theorem agentTurn_ackInit (s : State) :
    agentTurn .ackInit s =
      if s.mc.initRq = true ∧ s.mc.inak = false ∧ s.mc.slak = false then s.setMc { s.mc with inak := true } else s := by
  simp [agentTurn, agentEnabled, agentEffect, and_assoc]

theorem agentTurn_ackRun (s : State) :
    agentTurn .ackRun s =
      if s.mc.initRq = false ∧ s.mc.inak = true then s.setMc { s.mc with inak := false } else s := by
  simp [agentTurn, agentEnabled, agentEffect]

/-- With no sleep requested, AckWake's turn ends with sleep left, whether it was before or not. -/
theorem agentTurn_ackWake_of_withdrawn {s : State} (h : s.mc.sleepRq = false) :
    agentTurn .ackWake s = s.setMc { s.mc with slak := false } := by
  rw [agentTurn_ackWake]
  cases hslak : s.mc.slak with
  | true => exact if_pos ⟨h, rfl⟩
  | false =>
    rw [if_neg (by simp), ← hslak]
    rfl

/-- With initialization requested out of sleep, AckInit's turn ends with it acknowledged. -/
theorem agentTurn_ackInit_of_requested {s : State} (hrq : s.mc.initRq = true) (hslak : s.mc.slak = false) :
    agentTurn .ackInit s = s.setMc { s.mc with inak := true } := by
  rw [agentTurn_ackInit]
  cases hinak : s.mc.inak with
  | false => exact if_pos ⟨hrq, rfl, hslak⟩
  | true =>
    rw [if_neg (by simp), ← hinak]
    rfl

/-! What an agent's turn leaves alone (R112, R166, R193, R271). -/

/-- A delivery writes the FIFOs alone. -/
theorem deliver_frame (fr : Frame) (ts : BitVec 16) (s : State) :
    deliver fr ts s = { s with fifo := (deliver fr ts s).fifo } := by
  rcases deliver_cases fr ts s with h | ⟨f, fmi, -, -, h⟩
  · rw [h]
  · rw [h]
    rfl

/-- A sending writes the FIFOs and emits. -/
theorem sent_frame (x : Mailbox) (ts : BitVec 16) (pad : Payload) (s : State) :
    sent x ts pad s = { s with fifo := (sent x ts pad s).fifo, busTx := (sent x ts pad s).busTx } := by
  obtain ⟨e, rfl | rfl, h | h⟩ := sent_cases x ts pad s
  · rw [h, deliver_frame]
  · rw [h]
  · rw [h, deliver_frame]
    rfl
  · rw [h]
    rfl

/-- A completion writes mailbox flags, the queue and the FIFOs, and emits. -/
theorem complete_frame (m : MbIdx) (o : TxOutcome) (ts : BitVec 16) (pad : Payload) (s : State) :
    complete m o ts pad s =
      { s with
        mf := (complete m o ts pad s).mf
        txq := (complete m o ts pad s).txq
        fifo := (complete m o ts pad s).fifo
        busTx := (complete m o ts pad s).busTx } := by
  rcases complete_cases m o ts pad s with h | h
  · rw [h, sent_frame]
    rfl
  · rw [h]
    rfl

/-- No agent writes the host port, the configuration, a mailbox's content, a filter, the notification table, a latch,
the inputs still to come or an answer. -/
theorem agentTurn_frame (a : AgentStep) (s : State) :
    agentTurn a s =
      { s with
        mc := (agentTurn a s).mc
        mf := (agentTurn a s).mf
        txq := (agentTurn a s).txq
        fifo := (agentTurn a s).fifo
        err := (agentTurn a s).err
        busTx := (agentTurn a s).busTx } := by
  rcases agentTurn_cases a s with h | ⟨-, h⟩
  · rw [h]
  · rw [h]
    cases a with
    | txComplete => rw [agentEffect, complete_frame]
    | busRx => rw [agentEffect, deliver_frame]
    | ackWake | ackInit | ackRun | errWarn | errPassive | errBusOff | errBusErr => rfl

theorem agentTurn_cfg (a : AgentStep) (s : State) : (agentTurn a s).cfg = s.cfg := by rw [agentTurn_frame]

theorem agentTurn_hpt (a : AgentStep) (s : State) : (agentTurn a s).hpt = s.hpt := by rw [agentTurn_frame]

theorem agentTurn_port (a : AgentStep) (s : State) : (agentTurn a s).port = s.port := by rw [agentTurn_frame]

theorem agentTurn_sched (a : AgentStep) (s : State) : (agentTurn a s).sched = s.sched := by rw [agentTurn_frame]

theorem agentTurn_answers (a : AgentStep) (s : State) : (agentTurn a s).answers = s.answers := by rw [agentTurn_frame]

/-- R112: the handshake bits are ModeEngine's to change, one bit a step. -/
theorem agentTurn_mc_cases (a : AgentStep) (s : State) :
    (agentTurn a s).mc = s.mc ∨
      (a = .ackWake ∧ (agentTurn a s).mc = { s.mc with slak := false }) ∨
      (a = .ackInit ∧ (agentTurn a s).mc = { s.mc with inak := true }) ∨
      (a = .ackRun ∧ (agentTurn a s).mc = { s.mc with inak := false }) := by
  rcases agentTurn_cases a s with h | ⟨-, h⟩
  · exact .inl (by rw [h])
  · rw [h]
    cases a with
    | ackWake => exact .inr (.inl ⟨rfl, rfl⟩)
    | ackInit => exact .inr (.inr (.inl ⟨rfl, rfl⟩))
    | ackRun => exact .inr (.inr (.inr ⟨rfl, rfl⟩))
    | txComplete => exact .inl (by rw [agentEffect, complete_frame])
    | busRx => exact .inl (by rw [agentEffect, deliver_frame])
    | errWarn | errPassive | errBusOff | errBusErr => exact .inl rfl

/-- R112: no agent's turn enters sleep. -/
theorem agentTurn_slak {a : AgentStep} {s : State} (h : s.mc.slak = false) : (agentTurn a s).mc.slak = false := by
  rcases agentTurn_mc_cases a s with hmc | ⟨-, hmc⟩ | ⟨-, hmc⟩ | ⟨-, hmc⟩
  · rw [hmc, h]
  · rw [hmc]
  · rw [hmc, h]
  · rw [hmc, h]

/-- R116: only the awaited step ends the wait. -/
theorem AwaitsAck.agentTurn {s : State} {a b : AgentStep} (h : AwaitsAck s a) (hne : b ≠ a) :
    AwaitsAck (agentTurn b s) a := by
  have hmc := agentTurn_mc_cases b s
  cases h with
  | wake hp hslak =>
    refine .wake (by rw [agentTurn_hpt, hp]) ?_
    rcases hmc with hmc | ⟨rfl, -⟩ | ⟨-, hmc⟩ | ⟨-, hmc⟩
    · rw [hmc, hslak]
    · exact absurd rfl hne
    · rw [hmc, hslak]
    · rw [hmc, hslak]
  | init hp hinak =>
    refine .init (by rw [agentTurn_hpt, hp]) ?_
    rcases hmc with hmc | ⟨-, hmc⟩ | ⟨rfl, -⟩ | ⟨-, hmc⟩
    · rw [hmc, hinak]
    · rw [hmc, hinak]
    · exact absurd rfl hne
    · rw [hmc]

/-! What an operation and a host turn leave alone (R81, R110). -/

/-- R117: no operation writes the configuration; INIT's own first phase does not either. -/
theorem OpEffect.cfg_eq {s t : State} (h : OpEffect s t) : t.cfg = s.cfg := by
  cases h with
  | returned v =>
    rw [vectorReturn, clearFlag_frame]
    rfl
  | refused | queried | suspended | started | filtered | notified | requested | received | entered => rfl

/-- R117: the host's turn writes the configuration in phase P3 alone. -/
theorem HostEffect.cfg_cases {s t : State} (h : HostEffect s t) :
    t.cfg = s.cfg ∨ (s.hpt.hp = .initWaitInit ∧ s.mc.inak = true) := by
  cases h with
  | took rest _ heff => exact .inl heff.cfg_eq
  | waited | phase2 => exact .inl rfl
  | phase3 hp hinak => exact .inr ⟨hp, hinak⟩

/-- R112: no operation requests sleep or acknowledges it. -/
theorem OpEffect.slak_eq {s t : State} (h : OpEffect s t) : t.mc.slak = s.mc.slak := by
  cases h with
  | returned v =>
    rw [vectorReturn, clearFlag_frame]
    rfl
  | refused | queried | suspended | started | filtered | notified | requested | received | entered => rfl

theorem HostEffect.slak_eq {s t : State} (h : HostEffect s t) : t.mc.slak = s.mc.slak := by
  cases h with
  | took rest _ heff => exact heff.slak_eq
  | waited | phase2 | phase3 => rfl

/-! Steps and runs (R65, R66). -/

/-- A step that is no reset is a turn of the host port or of an agent, from the state without that turn. -/
theorem step_cases_of_no_reset {s t : State} (hreset : ∀ d r, s.sched ≠ .reset d :: r) (h : step s = .next t) :
    ∃ r, HostEffect (s.setSched r) t ∨ ∃ a, t = agentTurn a (s.setSched r) := by
  rcases step_cases h with ⟨u, hu, heff⟩ | ⟨a, u, hu, rfl⟩ | ⟨d, r, hs, -⟩
  · obtain ⟨r, rfl⟩ := hu.eq_setSched
    exact ⟨r, .inl heff⟩
  · obtain ⟨r, rfl⟩ := hu.eq_setSched
    exact ⟨r, .inr ⟨a, rfl⟩⟩
  · exact absurd hs (hreset d r)

theorem step_of_host_cons {s : State} {r : List Turn} (h : s.sched = .host :: r) :
    step s = hostTurn (s.setSched r) := step_of_hostMoves s _ (.inr ⟨r, h, rfl⟩)

theorem step_of_agent_cons {s : State} {a : AgentStep} {r : List Turn} (h : s.sched = .agent a :: r) :
    step s = .next (agentTurn a (s.setSched r)) := step_of_agentMoves a s _ ⟨r, h, rfl⟩

/-- AckWake's turn once no sleep is requested. -/
theorem step_of_ackWake {s : State} {r : List Turn} (h : s.sched = .agent .ackWake :: r)
    (hsleepRq : s.mc.sleepRq = false) : step s = .next ((s.setSched r).setMc { s.mc with slak := false }) := by
  rw [step_of_agent_cons h, agentTurn_ackWake_of_withdrawn (s := s.setSched r) hsleepRq, State.setSched_mc]

/-- AckInit's turn once initialization is requested out of sleep. -/
theorem step_of_ackInit {s : State} {r : List Turn} (h : s.sched = .agent .ackInit :: r) (hrq : s.mc.initRq = true)
    (hslak : s.mc.slak = false) : step s = .next ((s.setSched r).setMc { s.mc with inak := true }) := by
  rw [step_of_agent_cons h, agentTurn_ackInit_of_requested (s := s.setSched r) hrq hslak, State.setSched_mc]

theorem run_succ_of_step {s t : State} (k : Nat) (h : step s = .next t) :
    Host.Core.run Sys2Proof.core (k + 1) s = Host.Core.run Sys2Proof.core k t := by
  have hcore : Sys2Proof.core.step s = .next t := h
  simp only [Host.Core.run, hcore]

/-- A run keeps what a step keeps, when from such a state no step stops. -/
theorem run_keeps {P : State → Prop} (hstep : ∀ s, P s → ∃ t, step s = .next t ∧ P t) (k : Nat) {s : State} (hs : P s) :
    ∃ t, Host.Core.run Sys2Proof.core k s = .next t ∧ P t := by
  induction k generalizing s with
  | zero => exact ⟨s, rfl, hs⟩
  | succ k ih =>
    obtain ⟨u, hu, hPu⟩ := hstep s hs
    rw [run_succ_of_step k hu]
    exact ih hPu

/-! The hang (R116, R304). -/

/-- Of the turns to come none is the step `a` and none a reset. -/
def NeverTaken (a : AgentStep) (ts : List Turn) : Prop := ∀ t ∈ ts, t ≠ .agent a ∧ ∀ d, t ≠ .reset d

/-- `t` waits for the step `a`, which no turn to come takes, and its host port is as in `s`. -/
structure StillWaits (a : AgentStep) (s t : State) : Prop where
  awaits : AwaitsAck t a
  never : NeverTaken a t.sched
  hpt_eq : t.hpt = s.hpt
  answers_eq : t.answers = s.answers
  port_eq : t.port = s.port

theorem AwaitsAck.setSched {s : State} {a : AgentStep} (h : AwaitsAck s a) (r : List Turn) :
    AwaitsAck (s.setSched r) a := by
  cases h with
  | wake hp hslak => exact .wake hp hslak
  | init hp hinak => exact .init hp hinak

/-- Dropping the next turn from the schedule. -/
theorem StillWaits.tail {a : AgentStep} {s t : State} {x : Turn} {r : List Turn} (h : StillWaits a s t)
    (hsched : t.sched = x :: r) : StillWaits a s (t.setSched r) :=
  ⟨h.awaits.setSched r, fun y hy => h.never y (hsched ▸ List.mem_cons_of_mem x hy), h.hpt_eq, h.answers_eq, h.port_eq⟩

theorem StillWaits.agentTurn {a b : AgentStep} {s t : State} (h : StillWaits a s t) (hne : b ≠ a) :
    StillWaits a s (agentTurn b t) where
  awaits := h.awaits.agentTurn hne
  never := by rw [agentTurn_sched]; exact h.never
  hpt_eq := by rw [agentTurn_hpt, h.hpt_eq]
  answers_eq := by rw [agentTurn_answers, h.answers_eq]
  port_eq := by rw [agentTurn_port, h.port_eq]

/-- R116: no step ends the wait, whoever's turn it is. -/
theorem StillWaits.step {a : AgentStep} {s t : State} (h : StillWaits a s t) :
    ∃ u, step t = .next u ∧ StillWaits a s u := by
  rcases hsched : t.sched with _ | ⟨_ | b | d, r⟩
  · exact ⟨t, (step_of_hostMoves t t (.inl ⟨hsched, rfl⟩)).trans h.awaits.hostTurn_eq, h⟩
  · have htail := h.tail hsched
    exact ⟨_, (step_of_host_cons hsched).trans htail.awaits.hostTurn_eq, htail⟩
  · obtain ⟨hne, -⟩ := h.never (.agent b) (by simp [hsched])
    exact ⟨_, step_of_agent_cons hsched, (h.tail hsched).agentTurn fun hb => hne (congrArg Turn.agent hb)⟩
  · obtain ⟨-, hne⟩ := h.never (.reset d) (by simp [hsched])
    exact absurd rfl (hne d)

/-- R116, R304: the hang, for either wait. -/
theorem run_of_never_acknowledged {a : AgentStep} {s : State} (h : AwaitsAck s a) (hnever : NeverTaken a s.sched)
    (k : Nat) :
    ∃ t, Host.Core.run Sys2Proof.core k s = .next t ∧ t.hpt = s.hpt ∧ t.answers = s.answers ∧ t.port = s.port := by
  obtain ⟨t, hrun, ht⟩ := run_keeps (fun _ hu => StillWaits.step hu) k (s := s) ⟨h, hnever, rfl, rfl, rfl⟩
  exact ⟨t, hrun, ht.hpt_eq, ht.answers_eq, ht.port_eq⟩

/-! A whole INIT (R110). -/

/-- The step that takes a well-formed INIT from the port. -/
theorem step_of_init_presented {baud : BitVec 3} (hbaud : baud ≠ 7) {lbkm silm ttcm abom awum art rflm txfp : Bool}
    {s : State} {r : List Turn} {ws : List Word} (hidle : s.hpt.hp = .idle) (hsched : s.sched = .host :: r)
    (hport : s.port = encode (.init lbkm silm baud ttcm abom awum art rflm txfp 0) ++ ws) :
    step s = .next (initPhase1 (packMode silm lbkm) baud (packPolicies ttcm abom awum art rflm txfp)
      ((s.setSched r).setPort ws)) := by
  rw [step_of_host_cons hsched, hostTurn_of_encoded (s := s.setSched r) hidle hport, exec_init hbaud]

/-- The five turns, phase by phase: each acknowledgment stands where its wait begins. -/
theorem run_init {baud : BitVec 3} (hbaud : baud ≠ 7) {lbkm silm ttcm abom awum art rflm txfp : Bool} {s : State}
    {r : List Turn} {ws : List Word} (hidle : s.hpt.hp = .idle)
    (hsched : s.sched = .host :: .agent .ackWake :: .host :: .agent .ackInit :: .host :: r)
    (hport : s.port = encode (.init lbkm silm baud ttcm abom awum art rflm txfp 0) ++ ws) :
    Host.Core.run Sys2Proof.core 5 s =
      .next { s with
        mc := ⟨false, false, true, true⟩
        hpt := ⟨.idle, packMode silm lbkm, baud, packPolicies ttcm abom awum art rflm txfp⟩
        cfg := latchedCfg Config.baudTable
          ⟨.initWaitInit, packMode silm lbkm, baud, packPolicies ttcm abom awum art rflm txfp⟩
        sched := r
        port := ws
        answers := s.answers ++ [⟨.ok, []⟩]
        collab := s.collab ++ [.portClkEn, .ctrlClkEn, .remap, .pinDirs] } :=
  calc Host.Core.run Sys2Proof.core 5 s
    _ = Host.Core.run Sys2Proof.core 4 _ :=
      run_succ_of_step 4 (step_of_init_presented hbaud hidle hsched hport)
    _ = Host.Core.run Sys2Proof.core 3 _ := run_succ_of_step 3 (step_of_ackWake rfl rfl)
    _ = Host.Core.run Sys2Proof.core 2 _ :=
      run_succ_of_step 2 ((step_of_host_cons rfl).trans (hostTurn_of_awake rfl rfl))
    _ = Host.Core.run Sys2Proof.core 1 _ := run_succ_of_step 1 (step_of_ackInit rfl rfl rfl)
    _ = Host.Core.run Sys2Proof.core 0 _ :=
      run_succ_of_step 0 ((step_of_host_cons rfl).trans (hostTurn_of_initAcknowledged rfl rfl))
    _ = _ := rfl

/-- R42 (c): at the second wait sleep is left, so the acknowledgment alone makes the mode INIT. -/
theorem mode_of_initAcknowledged {s : State} (hinv : Inv s) (hp : s.hpt.hp = .initWaitInit) (hinak : s.mc.inak = true) :
    mode s = .init := by
  obtain ⟨-, -, -, hinit, -⟩ := hinv.handshake
  obtain ⟨hslak, -⟩ := hinit hp
  simp [mode, hslak, hinak]

end Sys2Proof.Machine

section

open Sys2Proof Sys2Proof.Machine

/-- Settles O9, from phase P1 and the layout of the latched operands. -/
theorem initPhaseOneLatchesAndSuspends : Obligations.InitPhaseOneLatchesAndSuspends := by
  intro lbkm silm baud ttcm abom awum art rflm txfp s hbaud
  obtain ⟨hlbkm, hsilm⟩ := packMode_bits silm lbkm
  exact ⟨_, exec_init hbaud .., rfl, rfl, hlbkm, hsilm, packPolicies_bits ttcm abom awum art rflm txfp⟩

/-- Settles O13: carried out without a reserved bit, refused with one. -/
theorem startWithdrawsTheRequest : Obligations.StartWithdrawsTheRequest :=
  fun s => ⟨exec_start s, fun _ hrsvd => exec_of_illFormed (i := .start _) (beq_false_of_ne hrsvd) s⟩

/-- Settles O14, by the turn of each step. -/
theorem modeEngineAcknowledges : Obligations.ModeEngineAcknowledges := by
  refine fun s u => ⟨fun h => ?_, fun h => ?_, fun h => ?_⟩
  · rw [step_of_agentMoves _ s u h, agentTurn_ackWake, State.setMc]
  · rw [step_of_agentMoves _ s u h, agentTurn_ackInit, State.setMc]
  · rw [step_of_agentMoves _ s u h, agentTurn_ackRun, State.setMc]

/-- Settles O10: the host's turn at each wait, before and after its acknowledgment. -/
theorem suspendedInitWaitsOrGoesOn : Obligations.SuspendedInitWaitsOrGoesOn := by
  intro s u hmoves
  rw [step_of_hostMoves s u hmoves]
  refine ⟨fun hp hslak => (AwaitsAck.wake hp hslak).hostTurn_eq, fun hp hslak => hostTurn_of_awake hp hslak,
    fun hp hinak => (AwaitsAck.init hp hinak).hostTurn_eq, fun hbaud hp hinak => ?_⟩
  refine ⟨latchedCfg Config.baudTable u.hpt, ?_, rfl, rfl, rfl, rfl, rfl, rfl, rfl, rfl, latchedCfg_timing _ hbaud⟩
  rw [hostTurn_of_initAcknowledged hp hinak, initPhase3_eq_latchedCfg]
  rfl

/-- Settles O11: the five turns, and the configuration read off the operands phase P1 latched. -/
theorem initCompletesWithItsAcknowledgments : Obligations.InitCompletesWithItsAcknowledgments := by
  intro lbkm silm baud ttcm abom awum art rflm txfp hbaud s r ws hidle
  have hne : baud ≠ 7 := by
    rintro rfl
    exact absurd hbaud (by decide)
  obtain ⟨hlbkm, hsilm⟩ := packMode_bits silm lbkm
  obtain ⟨httcm, habom, hawum, hart, hrflm, htxfp⟩ := packPolicies_bits ttcm abom awum art rflm txfp
  exact ⟨_, _, run_init hne hidle rfl rfl, rfl, hlbkm, hsilm, httcm, habom, hawum,
    hart, hrflm, htxfp, latchedCfg_timing _ hbaud⟩

/-- Settles O12, by the hang at either wait. -/
theorem initHangsWithoutItsAcknowledgment : Obligations.InitHangsWithoutItsAcknowledgment := by
  rintro k s (⟨hp, hslak, hnever⟩ | ⟨hp, hinak, hnever⟩)
  · exact run_of_never_acknowledged (.wake hp hslak) hnever k
  · exact run_of_never_acknowledged (.init hp hinak) hnever k

/-- Settles O15: no agent writes the configuration, and the host's turn does in phase P3 alone. -/
theorem configurationChangesOnlyInInitMode : Obligations.ConfigurationChangesOnlyInInitMode := by
  intro s t hinv hreset hstep hchanged
  obtain ⟨r, heff | ⟨a, rfl⟩⟩ := step_cases_of_no_reset hreset hstep
  · rcases heff.cfg_cases with hsame | ⟨hp, hinak⟩
    · exact absurd hsame hchanged
    · exact ⟨mode_of_initAcknowledged hinv hp hinak, hp⟩
  · exact absurd (agentTurn_cfg a _) hchanged

/-- Settles O16: neither a host turn nor an agent's enters sleep. -/
theorem sleepIsLeftOnce : Obligations.SleepIsLeftOnce := by
  intro s t hreset hstep hslak
  obtain ⟨r, heff | ⟨a, rfl⟩⟩ := step_cases_of_no_reset hreset hstep
  · exact heff.slak_eq.trans hslak
  · exact agentTurn_slak hslak

end

/-! PROOFS of the statements about the acceptance filters (41_filter.md). First the bank registers a CFG_FILTER writes
and which operations change the filter state at all; then what the matcher answers, the index it computes and the
source's filter; then the closed matcher gate; then the statements. -/

namespace Sys2Proof.Machine

/-! The bank registers (R93, R132, R133). -/

theorem getLsbD_bankSel (b b' : BankIdx) : (bankSel b).getLsbD b'.val = decide (b'.val = b.val) := by
  have := b'.isLt
  rw [bankSel, BitVec.getLsbD_shiftLeft, BitVec.getLsbD_one]
  by_cases hlt : b'.val < b.val
  · simp [hlt, hlt.ne]
  · have hsame : b'.val - b.val = 0 ↔ b'.val = b.val := by omega
    simp [hlt, hsame]

/-- R133: one bit of a per-bank vector is written. -/
theorem getLsbD_putBank (x : BitVec 14) (b b' : BankIdx) (v : Bool) :
    (putBank x b v).getLsbD b'.val = if b'.val = b.val then v else x.getLsbD b'.val := by
  have hchosen : (if v then bankSel b else 0).getLsbD b'.val = (v && decide (b'.val = b.val)) := by
    cases v with
    | true => exact (getLsbD_bankSel b b').trans (Bool.true_and _).symm
    | false => exact BitVec.getLsbD_zero
  rw [putBank, BitVec.getLsbD_or, BitVec.getLsbD_and, BitVec.getLsbD_not, getLsbD_bankSel, hchosen]
  by_cases hb : b'.val = b.val
  · simp only [hb, decide_true, Bool.not_true, Bool.and_false, Bool.and_true, Bool.false_or, if_true]
  · simp only [hb, b'.isLt, decide_true, decide_false, Bool.not_false, Bool.and_false, Bool.and_true, Bool.or_false,
      if_false]

/-- R133: the bank configured is active after it, whatever it was; the others are as they were. -/
theorem getLsbD_configureBank_act (b b' : BankIdx) (fbm fsc ffa : Bool) (w0 w1 : Word) (x : Filters) :
    (configureBank b fbm fsc ffa w0 w1 x).act.getLsbD b'.val =
      if b'.val = b.val then true else x.act.getLsbD b'.val := by
  simp only [configureBank, getLsbD_putBank]
  split <;> rfl

/-- R93: in 16-bit scale the first register holds the low halves of the operands, the second their high halves. -/
theorem filterPack_halves (w0 w1 : Word) :
    fieldOf (filterPack false w0 w1).1 0 16 = fieldOf w0 0 16 ∧
      fieldOf (filterPack false w0 w1).1 16 16 = fieldOf w1 0 16 ∧
      fieldOf (filterPack false w0 w1).2 0 16 = fieldOf w0 16 16 ∧
      fieldOf (filterPack false w0 w1).2 16 16 = fieldOf w1 16 16 := by
  simp [filterPack]

/-! Which operations change the filter state (R130, R131, R133). -/

/-- What an operation can make of the filter state `x`. -/
inductive FilterChange (x : Filters) : Instr → Filters → Prop where
  /-- Nothing: any other operation, and any refusal. -/
  | kept (i : Instr) : FilterChange x i x
  /-- FINIT_ENTER (R130). -/
  | initSet : FilterChange x (.finitEnter 0) { x with finit := true }
  /-- FINIT_EXIT (R131). -/
  | initCleared : FilterChange x (.finitExit 0) { x with finit := false }
  /-- CFG_FILTER (R133). -/
  | configured {bank : BitVec 4} (h : bank.toNat < 14) (fbm fsc ffa : Bool) (w0 w1 : Word) :
      FilterChange x (.cfgFilter bank fbm fsc ffa 0 w0 w1) (configureBank ⟨bank.toNat, h⟩ fbm fsc ffa w0 w1 x)

/-- The result is a next state, with a filter state operation `i` can make of that of `s`. -/
def HasFilterChange (i : Instr) (s : State) (r : Result) : Prop := ∃ t, r = .next t ∧ FilterChange s.flt i t.flt

theorem hasFilterChange_raise (i : Instr) (st : Status) (s : State) : HasFilterChange i s (raise st s) :=
  ⟨_, rfl, .kept i⟩

theorem hasFilterChange_returnOk {i : Instr} {s u : State} {ws : List Word} (h : FilterChange s.flt i u.flt) :
    HasFilterChange i s (returnOk ws u) := ⟨_, rfl, h⟩

/-- A check of R261 in front of what follows it. -/
theorem HasFilterChange.check {i : Instr} {s : State} {c : Prop} [Decidable c] {st : Status} {r : Result}
    (h : HasFilterChange i s r) : HasFilterChange i s (if c then raise st s else r) := by
  split
  · exact hasFilterChange_raise i st s
  · exact h

/-- A condition the operation requires. -/
theorem HasFilterChange.require {i : Instr} {s : State} {c : Prop} [Decidable c] {st : Status} {r : Result}
    (h : HasFilterChange i s r) : HasFilterChange i s (if c then r else raise st s) := by
  split
  · exact h
  · exact hasFilterChange_raise i st s

/-- A vector entry writes its latch, the code snapshot and the answer. -/
theorem hasFilterChange_vectorEntry (i : Instr) (v : VecIdx) (links : List Link) (s : State) :
    HasFilterChange i s (vectorEntry v links s) := by
  rcases vectorEntry_cases v links s with ⟨-, h⟩ | ⟨l, -, h⟩
  · exact ⟨_, h, .kept i⟩
  · refine ⟨_, h, ?_⟩
    split <;> exact .kept i

theorem hasFilterChange_execVecTx (i : Instr) (rsvd : BitVec 24) (s : State) :
    HasFilterChange i s (execVecTx rsvd s) := by
  refine .check (.check ?_)
  split <;> exact hasFilterChange_returnOk (.kept i)

theorem vectorReturn_flt (v : VecIdx) (s : State) : (vectorReturn v s).flt = s.flt := by
  rw [vectorReturn, clearFlag_frame]
  rfl

/-- A well-formed operation beside the queries. -/
theorem hasFilterChange_of_wellFormed {i : Instr} (hwf : i.WellFormed) (hq : isQuery i.op = false) (s : State) :
    HasFilterChange i s (exec i s) := by
  cases i with
  | init => exact .check ⟨_, rfl, .kept _⟩
  | start => exact .check (hasFilterChange_returnOk (.kept _))
  | finitEnter rsvd =>
    obtain rfl : rsvd = 0 := eq_of_beq hwf
    exact hasFilterChange_returnOk .initSet
  | finitExit rsvd =>
    obtain rfl : rsvd = 0 := eq_of_beq hwf
    exact hasFilterChange_returnOk .initCleared
  | cfgFilter bank fbm fsc ffa rsvd w0 w1 =>
    obtain ⟨rfl, hbank⟩ : rsvd = 0 ∧ bank.toNat < 14 := by simpa [Instr.WellFormed, Instr.wellFormed] using hwf
    rw [exec_cfgFilter hbank]
    exact .require (hasFilterChange_returnOk (.configured hbank fbm fsc ffa w0 w1))
  | transmit => exact .check (.check (.check (hasFilterChange_returnOk (.kept _))))
  | receive => exact .check (.check (hasFilterChange_returnOk (.kept _)))
  | notifyEn kind rsvd cb =>
    obtain ⟨rfl, hkind⟩ : rsvd = 0 ∧ kind.toNat ≤ 18 := by simpa [Instr.WellFormed, Instr.wellFormed] using hwf
    rw [exec_notifyEn (Nat.lt_succ_of_le hkind)]
    exact hasFilterChange_returnOk (.kept _)
  | notifyDis kind rsvd =>
    obtain ⟨rfl, hkind⟩ : rsvd = 0 ∧ kind.toNat ≤ 18 := by simpa [Instr.WellFormed, Instr.wellFormed] using hwf
    rw [exec_notifyDis (Nat.lt_succ_of_le hkind)]
    exact hasFilterChange_returnOk (.kept _)
  | vecTx rsvd => exact hasFilterChange_execVecTx _ rsvd s
  | vecRx0 => exact .check (.check (hasFilterChange_vectorEntry _ 1 _ s))
  | vecRx1Sce => exact .check (.check (hasFilterChange_vectorEntry _ 2 _ s))
  | vecDone vector rsvd =>
    obtain ⟨rfl, hvector⟩ : rsvd = 0 ∧ vector ≠ 3 := by simpa [Instr.WellFormed, Instr.wellFormed] using hwf
    have hlt : vector.toNat < 3 := by bv_omega
    rw [exec_vecDone hlt]
    exact .require (hasFilterChange_returnOk (vectorReturn_flt _ s ▸ .kept _))
  | freeCount | mboxPending | fifoCount | rdCfg | rdMsr | rdTsr | rdRfr | rdEsr | rdIer | rdFbank =>
    exact nomatch hq

/-- Three operations change the filter state, each in its own way. -/
theorem hasFilterChange_exec (i : Instr) (s : State) : HasFilterChange i s (exec i s) := by
  cases hwf : i.wellFormed with
  | false =>
    rw [exec_of_illFormed hwf]
    exact hasFilterChange_raise i _ s
  | true =>
    cases hq : isQuery i.op with
    | false => exact hasFilterChange_of_wellFormed hwf hq s
    | true =>
      obtain ⟨f, hreads, -⟩ := query_onlyReads hq hwf
      rw [hreads s]
      exact hasFilterChange_returnOk (.kept i)

/-- The idle port's turn keeps the filter state, or is the change of the operation it takes. -/
theorem acceptTransaction_filterChange {s t : State} (h : acceptTransaction s = .next t) :
    t.flt = s.flt ∨ ∃ i rest, decode s.port = .ok i rest ∧ FilterChange s.flt i t.flt := by
  unfold acceptTransaction at h
  split at h
  next i rest hdecode =>
    obtain ⟨t', ht', hchange⟩ := hasFilterChange_exec i (s.setPort rest)
    obtain rfl : t' = t := Host.Outcome.next.inj (ht'.symm.trans h)
    exact .inr ⟨i, rest, hdecode, hchange⟩
  all_goals
    obtain rfl := Host.Outcome.next.inj h
    exact .inl rfl

/-- The host's turn keeps the filter state, or is the change of the operation it takes. -/
theorem hostTurn_filterChange {s t : State} (h : hostTurn s = .next t) (heff : HostEffect s t) :
    t.flt = s.flt ∨ ∃ i rest, decode s.port = .ok i rest ∧ FilterChange s.flt i t.flt := by
  cases heff with
  | waited | phase2 | phase3 => exact .inl rfl
  | took rest hidle => exact acceptTransaction_filterChange ((hostTurn_of_idle hidle).symm.trans h)

theorem agentTurn_flt (a : AgentStep) (s : State) : (agentTurn a s).flt = s.flt := by rw [agentTurn_frame]

/-- R43: no bank is active after a reset. -/
theorem getLsbD_resetTurn_act (d : ResetDraw) (s : State) (n : Nat) : (resetTurn d s).flt.act.getLsbD n = false :=
  BitVec.getLsbD_zero

/-- R133 (a): the one change that makes a bank active is its own configuration. -/
theorem FilterChange.configured_of_activated {x y : Filters} {i : Instr} {b : BankIdx} (h : FilterChange x i y)
    (hx : x.act.getLsbD b.val = false) (hy : y.act.getLsbD b.val = true) :
    ∃ (bank : BitVec 4) (fbm fsc ffa : Bool) (w0 w1 : Word), i = .cfgFilter bank fbm fsc ffa 0 w0 w1 ∧
      bank.toNat = b.val ∧ y = configureBank b fbm fsc ffa w0 w1 x := by
  cases h with
  | kept | initSet | initCleared => exact absurd (hx.symm.trans hy) Bool.false_ne_true
  | @configured bank hbank fbm fsc ffa w0 w1 =>
    have hb : b.val = bank.toNat := by
      by_contra hne
      rw [getLsbD_configureBank_act, if_neg hne, hx] at hy
      exact Bool.false_ne_true hy
    obtain rfl : b = ⟨bank.toNat, hbank⟩ := Fin.ext hb
    exact ⟨bank, fbm, fsc, ffa, w0, w1, rfl, rfl, rfl⟩

/-- A step that makes a bank active is a host turn that takes an operation's change of the filter state. -/
theorem filterChange_of_step {s t : State} {b : BankIdx} (h : step s = .next t) (hs : s.flt.act.getLsbD b.val = false)
    (ht : t.flt.act.getLsbD b.val = true) :
    ∃ u i rest, HostMoves s u ∧ decode u.port = .ok i rest ∧ FilterChange s.flt i t.flt := by
  have hchanged : t.flt ≠ s.flt := fun hsame => Bool.false_ne_true (hs.symm.trans (hsame ▸ ht))
  rcases step_cases h with ⟨u, hu, heff⟩ | ⟨a, u, hu, rfl⟩ | ⟨d, r, -, rfl⟩
  · have hturn : hostTurn u = .next t := (step_of_hostMoves s u hu).symm.trans h
    have hflt : u.flt = s.flt := by
      obtain ⟨r, rfl⟩ := hu.eq_setSched
      rfl
    rcases hostTurn_filterChange hturn heff with hsame | ⟨i, rest, hdecode, hchange⟩
    · exact absurd (hsame.trans hflt) hchanged
    · exact ⟨u, i, rest, hu, hdecode, hflt ▸ hchange⟩
  · obtain ⟨r, rfl⟩ := hu.eq_setSched
    exact absurd (agentTurn_flt a _) hchanged
  · exact absurd ((getLsbD_resetTurn_act d _ _).symm.trans ht) Bool.false_ne_true

/-! What the matcher answers (R137, R138, R140). -/

/-- R135: a hit's position is below 4. -/
theorem hit_position_lt (x : Filters) (fr : Frame) : ∀ k ∈ hitList x fr, k.j < 4 := by
  intro k hk
  obtain ⟨-, e, he, hj, -⟩ := (mem_hitList x fr k).1 hk
  exact hj ▸ entry_position_lt x k.bank e he

/-- R140: no answer exactly when nothing accepts. -/
theorem matchFrame_eq_none_iff (x : Filters) (fr : Frame) : matchFrame x fr = none ↔ ∀ b j, ¬ Accepts x fr b j :=
  calc matchFrame x fr = none
    _ ↔ leastHit x (hitList x fr) = none := by
      unfold matchFrame
      split <;> simp_all
    _ ↔ hitList x fr = [] := leastHit_eq_none x _
    _ ↔ ∀ k, k ∉ hitList x fr := List.eq_nil_iff_forall_not_mem
    _ ↔ ∀ b j, ¬ Accepts x fr b j :=
      ⟨fun h b j hacc => h ⟨b, j⟩ ((mem_hitList x fr ⟨b, j⟩).2 hacc),
        fun h k hk => h k.bank k.j ((mem_hitList x fr k).1 hk)⟩

/-- R137, R138: an answer comes from the accepting entry with the least key, and its index does not wrap. -/
theorem matchFrame_eq_some {x : Filters} {fr : Frame} {f : FifoIdx} {n : BitVec 8}
    (h : matchFrame x fr = some (f, n)) :
    ∃ b j, Accepts x fr b j ∧ (∀ b' j', Accepts x fr b' j' → hitKey x b j ≤ hitKey x b' j') ∧
      f = bankFifo x b ∧ n.toNat = fmiBase x (bankFifo x b) b + j := by
  unfold matchFrame at h
  split at h
  · cases h
  next k hk =>
    obtain ⟨hmem, hleast⟩ := leastHit_spec x _ (hit_position_lt x fr) k hk
    obtain ⟨rfl, rfl⟩ : bankFifo x k.bank = f ∧ _ = n := by simpa using h
    refine ⟨k.bank, k.j, (mem_hitList x fr k).1 hmem,
      fun b' j' hacc => hleast ⟨b', j'⟩ ((mem_hitList x fr ⟨b', j'⟩).2 hacc), rfl, ?_⟩
    have hj := hit_position_lt x fr k hmem
    have hbase := fmiBase_le x (bankFifo x k.bank) k.bank
    have hbank := k.bank.isLt
    rw [BitVec.toNat_ofNat]
    exact Nat.mod_eq_of_lt (by omega)

/-! The filter-match index (R135, R138). -/

theorem nFilters_eq_filtersHeld (x : Filters) (b : BankIdx) : nFilters x b = filtersHeld x b := by
  unfold nFilters entries filtersHeld
  cases x.fsc.getLsbD b.val <;> cases x.fbm.getLsbD b.val <;> rfl

theorem bankFifo_eq_one_iff (x : Filters) (b : BankIdx) : bankFifo x b = 1 ↔ x.ffa.getLsbD b.val = true := by
  simp [bankFifo]

/-- R34: two banks have one target FIFO exactly when their bits agree. -/
theorem bankFifo_eq_iff (x : Filters) (b b' : BankIdx) :
    bankFifo x b = bankFifo x b' ↔ x.ffa.getLsbD b.val = x.ffa.getLsbD b'.val := by
  unfold bankFifo
  cases x.ffa.getLsbD b.val <;> cases x.ffa.getLsbD b'.val <;> decide

/-- A sum over the banks a test selects from the list of all is a sum over every bank. -/
theorem sum_filter_allBanks (p : BankIdx → Bool) (g : BankIdx → Nat) :
    ((allBanks.filter p).map g).sum = ∑ b, if p b then g b else 0 := by
  have hnodup : allBanks.Nodup := by decide
  have hall : allBanks.toFinset = Finset.univ := Finset.eq_univ_of_forall fun b => List.mem_toFinset.2 (mem_allBanks b)
  rw [← Finset.sum_filter, ← hall, ← List.toFinset_filter, List.sum_toFinset g (hnodup.filter p)]

/-- R138 `Base`, as a sum over all banks. -/
theorem fmiBase_eq_sum (x : Filters) (b : BankIdx) :
    fmiBase x (bankFifo x b) b =
      ∑ b' : BankIdx, if b'.val < b.val ∧ x.ffa.getLsbD b'.val = x.ffa.getLsbD b.val then filtersHeld x b' else 0 := by
  rw [fmiBase, sum_filter_allBanks]
  simp only [Bool.and_eq_true, decide_eq_true_eq, beq_iff_eq, bankFifo_eq_iff, nFilters_eq_filtersHeld]

/-! The source's filter (R141). -/

theorem getLsbD_fieldAt {n : Nat} (lo : Nat) (f : BitVec n) {i : Nat} (h : i < 32) :
    (fieldAt lo f).getLsbD i = (decide (lo ≤ i) && f.getLsbD (i - lo)) := bitOf_fieldAt lo f i h

/-- Two words agree under a mask over one field exactly when the field has the value placed there. -/
theorem and_fieldMask_eq_iff {n : Nat} (w : Word) (lo : Nat) (f : BitVec n) (h : lo + n ≤ 32) :
    w &&& fieldAt lo (BitVec.allOnes n) = fieldAt lo f &&& fieldAt lo (BitVec.allOnes n) ↔ fieldOf w lo n = f := by
  have hfield {k : Nat} (hk : k < n) : (fieldOf w lo n).getLsbD k = w.getLsbD (lo + k) := by
    rw [getLsbD_fieldOf, decide_eq_true hk, Bool.true_and, bitOf]
  have hplaced (g : BitVec n) {k : Nat} (hk : k < n) : (fieldAt lo g).getLsbD (lo + k) = g.getLsbD k := by
    rw [getLsbD_fieldAt lo g (by omega), decide_eq_true (Nat.le_add_right lo k), Bool.true_and, Nat.add_sub_cancel_left]
  rw [and_mask_eq_iff, BitVec.eq_of_getLsbD_eq_iff]
  constructor
  · intro hagree k hk
    rw [hfield hk, ← hplaced f hk]
    exact hagree (lo + k) (by omega) ((hplaced _ hk).trans (by simp [hk]))
  · intro heq i hi hmask
    obtain ⟨hlo, hk⟩ : lo ≤ i ∧ i - lo < n := by simpa [getLsbD_fieldAt _ _ hi] using hmask
    obtain ⟨k, rfl⟩ := Nat.exists_eq_add_of_le hlo
    rw [Nat.add_sub_cancel_left] at hk
    rw [hplaced f hk, ← hfield hk]
    exact heq k hk

/-- R141: bank 0 alone is active, in 32-bit mask mode for FIFO 0, with the source's identifier and mask. -/
structure SourceFiltered (x : Filters) : Prop where
  act : x.act = 1
  fbm : x.fbm.getLsbD (0 : BankIdx).val = false
  fsc : x.fsc.getLsbD (0 : BankIdx).val = true
  ffa : x.ffa.getLsbD (0 : BankIdx).val = false
  fr1 : x.fr1[(0 : BankIdx)] = 0x01230000
  fr2 : x.fr2[(0 : BankIdx)] = 0x07FF0000

theorem SourceFiltered.active_iff {x : Filters} (h : SourceFiltered x) (b : BankIdx) :
    x.act.getLsbD b.val = true ↔ b = 0 := by
  rw [h.act]
  revert b
  decide

theorem SourceFiltered.entries_zero {x : Filters} (h : SourceFiltered x) :
    entries x 0 = [⟨0, .mask32 0x01230000 0x07FF0000⟩] := by
  simp only [entries, h.fsc, h.fbm, h.fr1, h.fr2, if_true, Bool.false_eq_true, if_false]

/-- The source's entry compares the identifier part `stid` and nothing else. -/
theorem hits_sourceEntry_iff (fr : Frame) : hits (.mask32 0x01230000 0x07FF0000) fr = true ↔ fr.stid = 0x123 := by
  obtain ⟨-, -, -, -, hstid, -⟩ := image32_layout fr
  rw [← hstid]
  exact beq_iff_eq.trans (and_fieldMask_eq_iff (image32 fr) 16 0x123#11 (by decide))

theorem SourceFiltered.accepts_iff {x : Filters} (h : SourceFiltered x) (fr : Frame) (b : BankIdx) (j : Nat) :
    Accepts x fr b j ↔ b = 0 ∧ j = 0 ∧ fr.stid = 0x123 := by
  rw [Accepts, h.active_iff]
  refine and_congr_right ?_
  rintro rfl
  simp only [h.entries_zero, List.mem_singleton, exists_eq_left, hits_sourceEntry_iff]
  exact and_congr_left' eq_comm

/-- R141: the one entry there is puts a frame into FIFO 0 with index 0. -/
theorem SourceFiltered.matchFrame_of_stid {x : Filters} (h : SourceFiltered x) {fr : Frame} (hstid : fr.stid = 0x123) :
    matchFrame x fr = some (0, 0) := by
  cases hm : matchFrame x fr with
  | none => exact absurd ((h.accepts_iff fr 0 0).2 ⟨rfl, rfl, hstid⟩) ((matchFrame_eq_none_iff x fr).1 hm 0 0)
  | some p =>
    obtain ⟨f, n⟩ := p
    obtain ⟨b, j, hacc, -, rfl, hn⟩ := matchFrame_eq_some hm
    obtain ⟨rfl, rfl, -⟩ := (h.accepts_iff fr b j).1 hacc
    have hfifo : bankFifo x 0 = 0 := if_neg (ne_true_of_eq_false h.ffa)
    have hbase := fmiBase_le x (bankFifo x 0) 0
    obtain rfl : n = 0 := BitVec.eq_of_toNat_eq (by simp at hbase; simp [hn, hbase])
    rw [hfifo]

/-! The closed matcher gate (R139). -/

theorem deliver_of_finit {s : State} (h : s.flt.finit = true) (fr : Frame) (ts : BitVec 16) : deliver fr ts s = s :=
  if_pos h

theorem sent_fifo_of_finit {s : State} (h : s.flt.finit = true) (x : Mailbox) (ts : BitVec 16) (pad : Payload) :
    (sent x ts pad s).fifo = s.fifo := by
  obtain ⟨e, rfl | rfl, hsent | hsent⟩ := sent_cases x ts pad s
  · rw [hsent, deliver_of_finit h]
  · rw [hsent]
  · rw [hsent, deliver_of_finit (s := s.emitBus _) h, State.emitBus_fifo]
  · rw [hsent, State.emitBus_fifo]

theorem complete_fifo_of_finit {s : State} (h : s.flt.finit = true) (m : MbIdx) (o : TxOutcome) (ts : BitVec 16)
    (pad : Payload) : (complete m o ts pad s).fifo = s.fifo := by
  rcases complete_cases m o ts pad s with hc | hc
  · rw [hc, sent_fifo_of_finit (s := freed m o s) h]
    rfl
  · rw [hc]
    rfl

/-- R139: with the gate closed no agent's turn writes a FIFO. -/
theorem agentTurn_fifo_of_finit {s : State} (h : s.flt.finit = true) (a : AgentStep) :
    (agentTurn a s).fifo = s.fifo := by
  rcases agentTurn_cases a s with hturn | ⟨-, hturn⟩
  · rw [hturn]
  · rw [hturn]
    cases a with
    | txComplete m o ts pad => exact complete_fifo_of_finit h m o ts pad
    | busRx => rw [agentEffect, deliver_of_finit h]
    | ackWake | ackInit | ackRun | errWarn | errPassive | errBusOff | errBusErr => rfl

end Sys2Proof.Machine

section

open Sys2Proof Sys2Proof.Machine

/-- Settles O18, from the rule for one bit of a per-bank vector and the packing of each scale. -/
theorem configureFilterProgramsOneBank : Obligations.ConfigureFilterProgramsOneBank := by
  intro bank h fbm fsc ffa w0 w1 s hfinit
  let b : BankIdx := ⟨bank.toNat, h⟩
  refine ⟨configureBank b fbm fsc ffa w0 w1 s.flt, ?_, hfinit, fun b' => ⟨?_, ?_, ?_, ?_, fun hne => ?_⟩, ?_, ?_⟩
  · rw [exec_cfgFilter h, if_pos hfinit]
    rfl
  · exact getLsbD_configureBank_act ..
  · exact getLsbD_putBank _ b b' fbm
  · exact getLsbD_putBank _ b b' fsc
  · exact getLsbD_putBank _ b b' ffa
  · exact ⟨Vector.getElem_set_ne h _ hne.symm, Vector.getElem_set_ne h _ hne.symm⟩
  · rintro rfl
    exact ⟨Vector.getElem_set_self _, Vector.getElem_set_self _⟩
  · rintro rfl
    simp only [configureBank, b, Vector.getElem_set_self]
    exact filterPack_halves w0 w1

/-- Settles O19, by the steps that change the filter state and the change that makes a bank active. -/
theorem bankActivatedOnlyByItsConfiguration : Obligations.BankActivatedOnlyByItsConfiguration := by
  intro s t b hstep hs ht
  obtain ⟨u, i, rest, hu, hdecode, hchange⟩ := filterChange_of_step hstep hs ht
  obtain ⟨bank, fbm, fsc, ffa, w0, w1, rfl, hb, hflt⟩ := hchange.configured_of_activated hs ht
  refine ⟨u, bank, fbm, fsc, ffa, w0, w1, rest, hu, hdecode, hb, ?_⟩
  rw [hflt]
  exact ⟨Vector.getElem_set_self _, Vector.getElem_set_self _⟩

/-- Settles O22, by `matchFrame_eq_none_iff`. -/
theorem unmatchedFramesHaveNoAcceptingEntry : Obligations.UnmatchedFramesHaveNoAcceptingEntry :=
  matchFrame_eq_none_iff

/-- Settles O23, from the least hit and its base as a sum over all banks. -/
theorem leastKeyDecidesFifoAndIndex : Obligations.LeastKeyDecidesFifoAndIndex := by
  intro x fr f n h
  obtain ⟨b, j, hacc, hleast, rfl, hn⟩ := matchFrame_eq_some h
  exact ⟨b, j, hacc, hleast, bankFifo_eq_one_iff x b, fmiBase_eq_sum x b ▸ hn, fmi_le_of_matchFrame h⟩

/-- Settles O24: the filter's one entry accepts by `stid` alone. -/
theorem sourceFilterAcceptsItsIdentifier : Obligations.SourceFilterAcceptsItsIdentifier := by
  intro x fr hact hfbm hfsc hffa hfr1 hfr2
  have hx : SourceFiltered x := ⟨hact, hfbm, hfsc, hffa, hfr1, hfr2⟩
  split
  next hstid => exact hx.matchFrame_of_stid hstid
  next hstid =>
    refine (matchFrame_eq_none_iff x fr).2 fun b j hacc => hstid ?_
    obtain ⟨-, -, h⟩ := (hx.accepts_iff fr b j).1 hacc
    exact h

/-- Settles O25, by the closed gate. -/
theorem nothingReceivedWhileFiltersAreConfigured : Obligations.NothingReceivedWhileFiltersAreConfigured := by
  intro s u t a hmoves hfinit hstep
  obtain rfl : agentTurn a u = t := Host.Outcome.next.inj ((step_of_agentMoves a s u hmoves).symm.trans hstep)
  obtain ⟨r, rfl⟩ := hmoves.eq_setSched
  exact agentTurn_fifo_of_finit (s := s.setSched r) hfinit a

/-- Settles O17: carried out without a reserved bit, refused with one. -/
theorem filterInitBitSetAndCleared : Obligations.FilterInitBitSetAndCleared :=
  fun s => ⟨rfl, rfl, fun _ hrsvd =>
    ⟨exec_of_illFormed (i := .finitEnter _) (beq_false_of_ne hrsvd) s,
      exec_of_illFormed (i := .finitExit _) (beq_false_of_ne hrsvd) s⟩⟩

end

/-! PROOFS of the statements about transmission (42_transmit.md). First what TRANSMIT loads and the mailbox code, the
arbitration key as a number, when a completion is enabled and what it sends, and what a loopback frame becomes when it
is read; then the statements. -/

namespace Sys2Proof.Machine

/-! TRANSMIT (R161, R162). -/

/-- R160, R161: the least empty mailbox is the one `code` names. -/
theorem code_eq_of_least_empty {s : State} {m : MbIdx} (hm : s.mf[m].tme = true)
    (hleast : ∀ m' : MbIdx, m' < m → s.mf[m'].tme = false) : code s = m := by
  obtain ⟨hcode, hbelow⟩ := code_of_anyEmpty s ((anyEmpty_iff s).2 ⟨m, hm⟩)
  rcases lt_trichotomy (code s) m with hlt | heq | hgt
  · exact absurd ((hleast _ hlt).symm.trans hcode) Bool.false_ne_true
  · exact heq
  · exact absurd ((hbelow _ hgt).symm.trans hm) Bool.false_ne_true

theorem countWord_mbIdx (m : MbIdx) : countWord m.val = BitVec.ofNat 32 m.val := by
  revert m
  decide

theorem mbIdx_eq_of_word_eq {m m' : MbIdx} (h : BitVec.ofNat 32 m.val = BitVec.ofNat 32 m'.val) : m = m' := by
  revert m m'
  decide

/-- R92: unpacking reads byte `i` from its lane. -/
theorem dataUnpack_get (lo hi : Word) (i : Fin 8) : (dataUnpack lo hi)[i] = laneOf lo hi i := by
  fin_cases i <;> rfl

/-- R161: the mailbox loaded holds the content, pending and with no old result. -/
theorem loadAndRequest_self (m : MbIdx) (x : Mailbox) (s : State) :
    (loadAndRequest m x s).mb[m] = x ∧ (loadAndRequest m x s).mf[m] = ⟨false, false, false, false, false, false⟩ :=
  ⟨Vector.getElem_set_self _, Vector.getElem_set_self _⟩

/-- R161: a TRANSMIT that answers a mailbox index has loaded that mailbox. -/
theorem loaded_of_exec_transmit {ide : Bool} {dlc : BitVec 4} {w0 : Word} (hdlc : dlc.toNat ≤ 8)
    (hid : idInRange ide w0 = true) {rtr tgt : Bool} {w1 w2 : Word} {s t : State} {m : MbIdx}
    (hexec : exec (.transmit ide rtr dlc tgt 0 w0 w1 w2) s = .next t)
    (hans : t.answers = s.answers ++ [⟨.ok, [BitVec.ofNat 32 m.val]⟩]) :
    ∃ ws, t = (loadAndRequest m (mailboxOf ide rtr dlc tgt w0 w1 w2) s).answer .ok ws := by
  rw [exec_transmit hdlc hid] at hexec
  split at hexec
  · obtain rfl := Host.Outcome.next.inj hexec
    simp at hans
  · obtain rfl := Host.Outcome.next.inj hexec
    have hword : BitVec.ofNat 32 (code s).val = BitVec.ofNat 32 m.val := by
      simpa [loadAndRequest, countWord_mbIdx] using hans
    obtain rfl : code s = m := mbIdx_eq_of_word_eq hword
    exact ⟨_, rfl⟩

/-! The mailbox code with no mailbox empty (R160, R163). -/

/-- R160: the code is the last of the priority order. -/
theorem getLast?_txPriority_eq_code {s : State} (hpending : ∀ m : MbIdx, s.mf[m].tme = false) (hq : s.txq ≠ []) :
    (txPriority s).getLast? = some (code s) := by
  have hne : txPriority s ≠ [] := fun hnil => hq ((hnil ▸ txPriority_perm s).symm.eq_nil)
  rw [code_of_not_anyEmpty s ((anyEmpty_eq_false_iff s).2 hpending), List.getLast?_eq_some_getLast hne,
    Option.getD_some]

theorem txPriority_of_prioOrder {s : State} (h : s.par.txPriority = .prioOrder) : txPriority s = prioOrder s := by
  simp only [txPriority, h]

/-- No element of a sorted list comes after its last. -/
theorem keyLe_of_getLast?_sortByKey {key : MbIdx → Nat} {l : List MbIdx} {a b : MbIdx} (ha : a ∈ l)
    (hb : (sortByKey key l).getLast? = some b) : keyLe key a b = true := by
  obtain ⟨hne, rfl⟩ := List.mem_getLast?_eq_getLast hb
  exact (sortByKey_sorted key l).rel_getLast_of_rel_getLast_getLast ((sortByKey_perm key l).mem_iff.2 ha)
    ((keyLe_iff _ _ _).2 (.inr ⟨rfl, le_refl _⟩))

/-! The arbitration key as a number (R163). -/

/-- A field above a word that stays below it adds its value at its position. -/
theorem toNat_fieldAt_or {n lo : Nat} (f : BitVec n) {w : Word} (hlo : lo + n ≤ 32) (hw : w.toNat < 2 ^ lo) :
    (fieldAt lo f ||| w).toNat = 2 ^ lo * f.toNat + w.toNat := by
  have hlt : f.toNat * 2 ^ lo < 2 ^ 32 :=
    calc f.toNat * 2 ^ lo
      _ < 2 ^ n * 2 ^ lo := Nat.mul_lt_mul_of_pos_right f.isLt (Nat.two_pow_pos lo)
      _ = 2 ^ (lo + n) := by rw [Nat.add_comm, Nat.pow_add]
      _ ≤ 2 ^ 32 := Nat.pow_le_pow_right (by decide) hlo
  have hplaced : (fieldAt lo f).toNat = 2 ^ lo * f.toNat := by
    have hf : f.toNat < 2 ^ 32 := (Nat.le_mul_of_pos_right _ (Nat.two_pow_pos lo)).trans_lt hlt
    rw [fieldAt, BitVec.toNat_shiftLeft, BitVec.toNat_setWidth, Nat.mod_eq_of_lt hf, Nat.shiftLeft_eq,
      Nat.mod_eq_of_lt hlt, Nat.mul_comm]
  rw [BitVec.toNat_or, hplaced, Nat.two_pow_add_eq_or_of_lt hw]

theorem toNat_bitAt_or {lo : Nat} (b : Bool) {w : Word} (hlo : lo + 1 ≤ 32) (hw : w.toNat < 2 ^ lo) :
    (bitAt lo b ||| w).toNat = 2 ^ lo * b.toNat + w.toNat := by
  rw [bitAt, toNat_fieldAt_or _ hlo hw, BitVec.toNat_ofBool]

theorem toNat_bitAt_zero (b : Bool) : (bitAt 0 b).toNat = b.toNat := by
  revert b
  decide

/-- The five parts of a key stand side by side. -/
theorem toNat_keyParts (stid : BitVec 11) (a b : Bool) (exid : BitVec 18) (c : Bool) :
    (fieldAt 21 stid ||| bitAt 20 a ||| bitAt 19 b ||| fieldAt 1 exid ||| bitAt 0 c).toNat =
      2 ^ 21 * stid.toNat + (2 ^ 20 * a.toNat + (2 ^ 19 * b.toNat + (2 ^ 1 * exid.toNat + c.toNat))) := by
  have hexid := exid.isLt
  have ha := Bool.toNat_le a
  have hb := Bool.toNat_le b
  have hc := Bool.toNat_le c
  have h1 := toNat_fieldAt_or exid (lo := 1) (w := bitAt 0 c) (by decide) (by rw [toNat_bitAt_zero]; omega)
  rw [toNat_bitAt_zero] at h1
  have h2 := toNat_bitAt_or b (lo := 19) (w := fieldAt 1 exid ||| bitAt 0 c) (by decide) (by omega)
  have h3 := toNat_bitAt_or a (lo := 20) (w := bitAt 19 b ||| (fieldAt 1 exid ||| bitAt 0 c)) (by decide) (by omega)
  rw [BitVec.or_assoc, BitVec.or_assoc, BitVec.or_assoc, toNat_fieldAt_or stid (by decide) (by omega), h3, h2, h1]

/-- R163: the key as a number. -/
theorem toNat_arbKey (x : Mailbox) :
    (arbKey x).toNat =
      2 ^ 21 * x.stid.toNat + (2 ^ 20 * (if x.ide then true else x.rtr).toNat +
        (2 ^ 19 * x.ide.toNat + (2 ^ 1 * x.exid.toNat + (if x.ide then x.rtr else false).toNat))) :=
  toNat_keyParts ..

theorem toNat_arbKey_of_standard {x : Mailbox} (h : x.ide = false) :
    (arbKey x).toNat = 2 ^ 21 * x.stid.toNat + 2 ^ 20 * x.rtr.toNat + 2 * x.exid.toNat := by
  simp [toNat_arbKey, h, Nat.add_assoc]

theorem toNat_arbKey_of_extended {x : Mailbox} (h : x.ide = true) :
    (arbKey x).toNat = 2 ^ 21 * x.stid.toNat + 2 ^ 20 + 2 ^ 19 + 2 * x.exid.toNat + x.rtr.toNat := by
  rw [toNat_arbKey, h]
  simp only [if_true, Bool.toNat_true]
  omega

/-! When a completion is enabled (R166, R167). -/

theorem mode_eq_normal_iff (s : State) : mode s = .normal ↔ s.mc.slak = false ∧ s.mc.inak = false := by
  cases hslak : s.mc.slak <;> cases hinak : s.mc.inak <;> simp [mode, hslak, hinak]

theorem mayComplete_iff (s : State) (m : MbIdx) :
    mayComplete s m = true ↔ (s.par.txOrderStrict = true → (txPriority s).head? = some m) := by
  simp [mayComplete, imp_iff_not_or]

theorem outcomeAllowed_iff (s : State) (o : TxOutcome) :
    outcomeAllowed s o = true ↔ (s.par.artRestricts = true → s.cfg.art = true → o = .ok ∨ o = .abort) := by
  cases o with
  | ok | abort => simp [outcomeAllowed]
  | arbLost | txError => simp [outcomeAllowed, imp_iff_not_or]

theorem txComplete_enabled_iff (m : MbIdx) (o : TxOutcome) (ts : BitVec 16) (pad : Payload) (s : State) :
    agentEnabled (.txComplete m o ts pad) s = true ↔
      s.mc.slak = false ∧ s.mc.inak = false ∧ s.mf[m].tme = false ∧
        (s.par.txOrderStrict = true → (txPriority s).head? = some m) ∧
        (s.par.artRestricts = true → s.cfg.art = true → o = .ok ∨ o = .abort) := by
  simp only [agentEnabled, Bool.and_eq_true, beq_iff_eq, Bool.not_eq_true', mode_eq_normal_iff, mayComplete_iff,
    outcomeAllowed_iff, and_assoc]

theorem agentTurn_of_enabled {a : AgentStep} {s : State} (h : agentEnabled a s = true) :
    agentTurn a s = agentEffect a s := if_pos h

theorem agentTurn_of_not_enabled {a : AgentStep} {s : State} (h : ¬ agentEnabled a s = true) : agentTurn a s = s :=
  if_neg h

/-! What a completion does (R166, R168, R170). -/

theorem completedFlags_eq (o : TxOutcome) (x : MbFlags) :
    completedFlags o x =
      { tme := true
        rqcp := true
        txok := x.txok || o == .ok
        alst := x.alst || o == .arbLost
        terr := x.terr || o == .txError
        abrt := x.abrt || o == .abort } := by
  cases o <;> simp [completedFlags]

theorem complete_ok (m : MbIdx) (ts : BitVec 16) (pad : Payload) (s : State) :
    complete m .ok ts pad s = sent s.mb[m] ts pad (freed m .ok s) := rfl

theorem complete_of_ne_ok {o : TxOutcome} (h : o ≠ .ok) (m : MbIdx) (ts : BitVec 16) (pad : Payload) (s : State) :
    complete m o ts pad s = freed m o s := if_neg h

/-- R166: sending writes neither the flags nor the queue. -/
theorem complete_mf_txq (m : MbIdx) (o : TxOutcome) (ts : BitVec 16) (pad : Payload) (s : State) :
    (complete m o ts pad s).mf = s.mf.set m.val (completedFlags o s.mf[m]) ∧
      (complete m o ts pad s).txq = s.txq.filter fun x => x != m := by
  rcases complete_cases m o ts pad s with h | h
  · rw [h, sent_frame]
    exact ⟨rfl, rfl⟩
  · rw [h]
    exact ⟨rfl, rfl⟩

/-- Whether a frame is stored, and where, depends on the filters, the configuration and the FIFOs alone. -/
theorem deliver_fifo_congr {s t : State} (hflt : t.flt = s.flt) (hcfg : t.cfg = s.cfg) (hfifo : t.fifo = s.fifo)
    (fr : Frame) (ts : BitVec 16) : (deliver fr ts t).fifo = (deliver fr ts s).fifo := by
  unfold deliver
  rw [hflt]
  split
  · exact hfifo
  · split
    · exact hfifo
    · simp [enqueue, hcfg, hfifo]

theorem deliver_fifo_of_match {s : State} {fr : Frame} {f : FifoIdx} {n : BitVec 8} (hfinit : s.flt.finit = false)
    (hmatch : matchFrame s.flt fr = some (f, n)) (ts : BitVec 16) :
    (deliver fr ts s).fifo[f] = pushSlot s.cfg.rflm s.fifo[f] ⟨fr, n, ts⟩ := by
  simp only [deliver, hfinit, hmatch]
  exact (State.setFifo_fifo_get s f f _).trans (if_pos rfl)

/-- R168: the frame out on `bus_tx`, unless silent. -/
def emitted (x : Mailbox) (pad : Payload) (s : State) : State :=
  if s.cfg.silm then s else s.emitBus ⟨sentFrame x s.cfg.ttcm pad, x.tgt⟩

theorem emitted_eq (x : Mailbox) (pad : Payload) (s : State) :
    emitted x pad s =
      { s with busTx := if s.cfg.silm then s.busTx else s.busTx ++ [⟨sentFrame x s.cfg.ttcm pad, x.tgt⟩] } := by
  unfold emitted
  split <;> rfl

/-- R168: the two parts of a sending. -/
theorem sent_eq (x : Mailbox) (ts : BitVec 16) (pad : Payload) (s : State) :
    sent x ts pad s =
      if s.cfg.lbkm then deliver (sentFrame x s.cfg.ttcm pad) ts (emitted x pad s) else emitted x pad s := rfl

theorem sent_busTx (x : Mailbox) (ts : BitVec 16) (pad : Payload) (s : State) :
    (sent x ts pad s).busTx =
      if s.cfg.silm then s.busTx else s.busTx ++ [⟨sentFrame x s.cfg.ttcm pad, x.tgt⟩] := by
  rw [sent_eq]
  split
  · rw [deliver_frame, emitted_eq]
  · rw [emitted_eq]

/-- R168: what a sending stores: in loopback the frame delivered, else nothing. -/
theorem sent_fifo (x : Mailbox) (ts : BitVec 16) (pad : Payload) (s : State) :
    (sent x ts pad s).fifo =
      if s.cfg.lbkm then (deliver (sentFrame x s.cfg.ttcm pad) ts s).fifo else s.fifo := by
  rw [sent_eq, emitted_eq]
  split
  · refine deliver_fifo_congr ?_ ?_ ?_ _ ts <;> rfl
  · rfl

theorem bytes8_get (g : Fin 8 → Byte) (i : Fin 8) : (bytes8 g)[i] = g i := by
  fin_cases i <;> rfl

theorem payload_ext {d e : Payload} (h : ∀ i : Fin 8, d[i] = e[i]) : d = e :=
  Vector.ext fun i hi => h ⟨i, hi⟩

/-- R168, R170: the bytes sent as loaded and the bytes sent as drawn. -/
theorem sentFrame_data_get (x : Mailbox) (ttcm : Bool) (pad : Payload) (i : Fin 8) :
    (sentFrame x ttcm pad).data[i] =
      if i.val < x.dlc.toNat ∧ x.rtr = false ∧ ¬ (x.tgt = true ∧ ttcm = true ∧ x.dlc = 8 ∧ (i = 6 ∨ i = 7)) then
        x.data[i]
      else pad[i] := by
  have hstamp : 6 ≤ i.val ↔ i = 6 ∨ i = 7 := by omega
  simp only [← hstamp]
  exact bytes8_get _ i

/-- R161, R168: the data frame of eight bytes with an identifier and a payload as the host gives them. -/
def fullDataFrame (ide : Bool) (w0 w1 w2 : Word) : Frame :=
  ⟨ide, false, (idSplit ide w0).1, (idSplit ide w0).2, 8, dataUnpack w1 w2⟩

/-- R170: a data frame of eight bytes with no time-stamp goes out as loaded. -/
theorem sentFrame_of_full_data (ide : Bool) (w0 w1 w2 : Word) (ttcm : Bool) (pad : Payload) :
    sentFrame (mailboxOf ide false 8 false w0 w1 w2) ttcm pad = fullDataFrame ide w0 w1 w2 := by
  have hdata : (sentFrame (mailboxOf ide false 8 false w0 w1 w2) ttcm pad).data = dataUnpack w1 w2 :=
    payload_ext fun i => (sentFrame_data_get _ ttcm pad i).trans (if_pos ⟨i.isLt, rfl, by simp [mailboxOf]⟩)
  rw [fullDataFrame, ← hdata]
  rfl

/-! What RECEIVE reads (R98, R191, R192). -/

theorem dataPack_dataUnpack (lo hi : Word) :
    dataPackLo (dataUnpack lo hi) = lo ∧ dataPackHi (dataUnpack lo hi) = hi := by
  have hlanes (w : Word) : fieldAt 0 (fieldOf w 0 8) ||| fieldAt 8 (fieldOf w 8 8) ||| fieldAt 16 (fieldOf w 16 8) |||
      fieldAt 24 (fieldOf w 24 8) = w := by
    rw [fieldAt_join_of_eq w 8 rfl, fieldAt_join_of_eq w 8 rfl, fieldAt_join_of_eq w 8 rfl, fieldAt_whole]
  exact ⟨hlanes lo, hlanes hi⟩

/-- R192: a full frame has no byte to fill. -/
theorem zeroFill_eight (d : Payload) : zeroFill 8 d = d :=
  payload_ext fun i => (bytes8_get _ i).trans (if_pos i.isLt)

/-- R98: the words read from a slot that holds a full data frame TRANSMIT accepted. -/
theorem receiveWords_of_full_data {ide : Bool} {w0 : Word} (hid : idInRange ide w0 = true) (w1 w2 : Word) (n : BitVec 8)
    (ts : BitVec 16) :
    receiveWords ⟨fullDataFrame ide w0 w1 w2, n, ts⟩ =
      [w0, bitAt 0 ide ||| bitAt 1 false ||| fieldAt 2 (8 : BitVec 4) ||| fieldAt 8 n ||| fieldAt 16 ts, w1, w2] := by
  obtain ⟨hlo, hhi⟩ := dataPack_dataUnpack w1 w2
  simp only [receiveWords, fullDataFrame, zeroFill_eight, idJoin_idSplit hid, hlo, hhi]

/-- R98: the fields of the second result word. -/
theorem receiveWord1_layout (ide rtr : Bool) (dlc : BitVec 4) (n : BitVec 8) (ts : BitVec 16) :
    let r1 := bitAt 0 ide ||| bitAt 1 rtr ||| fieldAt 2 dlc ||| fieldAt 8 n ||| fieldAt 16 ts
    bitOf r1 0 = ide ∧ bitOf r1 1 = rtr ∧ fieldOf r1 2 4 = dlc ∧ fieldOf r1 6 2 = 0 ∧ fieldOf r1 8 8 = n ∧
      fieldOf r1 16 16 = ts := by
  simp

/-- R190, R191: a frame that arrives at an empty FIFO is its window, and its release empties the FIFO again. -/
theorem pushSlot_of_empty {x : Fifo} (hx : x.fmp = 0) (rflm : Bool) (y : Slot) :
    (pushSlot rflm x y).fmp ≠ 0 ∧ window (pushSlot rflm x y) = y ∧ (releaseSlot (pushSlot rflm x y)).fmp = 0 := by
  have hqueue : fifoList (pushSlot rflm x y) = [y] := by
    rw [fifoList_pushSlot_of_lt rflm x y (by simp [hx])]
    simp [fifoList, hx]
  have hpending : (pushSlot rflm x y).fmp ≠ 0 := by
    intro hzero
    simp [fifoList, hzero] at hqueue
  rw [fifoList_eq_window_cons _ hpending] at hqueue
  obtain ⟨hwindow, hrest⟩ := List.cons.inj hqueue
  have hcount : (releaseSlot (pushSlot rflm x y)).fmp.toNat = 0 := by rw [← length_fifoList, hrest, List.length_nil]
  exact ⟨hpending, hwindow, BitVec.eq_of_toNat_eq hcount⟩

theorem exec_receive {fifo : BitVec 1} {f : FifoIdx} (hf : fifo.toNat = f.val) {s : State} (h : s.fifo[f].fmp ≠ 0) :
    exec (.receive fifo 0) s = returnOk (receiveWords (window s.fifo[f])) (s.setFifo f (releaseSlot s.fifo[f])) := by
  obtain rfl : fifoIdx fifo = f := Fin.ext hf
  exact if_neg h

/-! The loopback (R168, R190). -/

/-- R166, R168: in loopback, the completion of a mailbox TRANSMIT has just loaded stores its frame. -/
theorem fifo_of_loopback {ide : Bool} {w0 w1 w2 : Word} {s : State} {m : MbIdx} {f : FifoIdx} {n : BitVec 8}
    (hslak : s.mc.slak = false) (hinak : s.mc.inak = false) (hlbkm : s.cfg.lbkm = true) (hfinit : s.flt.finit = false)
    (hstrict : s.par.txOrderStrict = false)
    (hmatch : matchFrame s.flt (fullDataFrame ide w0 w1 w2) = some (f, n))
    (hload : s.mb[m] = mailboxOf ide false 8 false w0 w1 w2) (hpending : s.mf[m].tme = false) (ts : BitVec 16)
    (pad : Payload) :
    (agentTurn (.txComplete m .ok ts pad) s).fifo[f] =
      pushSlot s.cfg.rflm s.fifo[f] ⟨fullDataFrame ide w0 w1 w2, n, ts⟩ := by
  have henabled : agentEnabled (.txComplete m .ok ts pad) s = true :=
    (txComplete_enabled_iff m .ok ts pad s).2
      ⟨hslak, hinak, hpending, fun h => absurd (hstrict.symm.trans h) Bool.false_ne_true, fun _ _ => .inl rfl⟩
  have hfifo : (agentTurn (.txComplete m .ok ts pad) s).fifo =
      (deliver (sentFrame s.mb[m] s.cfg.ttcm pad) ts (freed m .ok s)).fifo := by
    rw [agentTurn_of_enabled henabled, agentEffect, complete_ok, sent_fifo]
    exact if_pos hlbkm
  rw [hfifo, hload, sentFrame_of_full_data]
  exact deliver_fifo_of_match (s := freed m .ok s) hfinit hmatch ts

end Sys2Proof.Machine

section

open Sys2Proof Sys2Proof.Machine

/-- Settles O26: the least empty mailbox is `code`, and what is loaded there is `mailboxOf`. -/
theorem transmitLoadsTheLeastEmptyMailbox : Obligations.TransmitLoadsTheLeastEmptyMailbox := by
  intro ide rtr dlc tgt w0 w1 w2 s m hdlc hid hm hleast
  have hsome : ¬ anyEmpty s = false := by simpa using (anyEmpty_iff s).2 ⟨m, hm⟩
  refine ⟨mailboxOf ide rtr dlc tgt w0 w1 w2, ?_, rfl, rfl, rfl, rfl, ?_, ?_, dataUnpack_get w1 w2⟩
  · rw [exec_transmit hdlc hid, if_neg hsome, code_eq_of_least_empty hm hleast, countWord_mbIdx]
    rfl
  · cases ide <;> rfl
  · cases ide <;> rfl

/-- Settles O28: the code is the last of the default order, which is the queue or the queue sorted by key. -/
theorem codePointsAtTheLowestPriority : Obligations.CodePointsAtTheLowestPriority := by
  intro s hpending hq hdefault
  have hlast := getLast?_txPriority_eq_code hpending hq
  have hmem := (txPriority_perm s).mem_iff.1 (List.mem_of_getLast? hlast)
  rw [txPriority_of_prioOrder hdefault] at hlast
  refine ⟨fun htxfp => ?_, fun htxfp => ⟨hmem, fun m hm => ?_⟩⟩
  · rwa [prioOrder, if_neg (ne_true_of_eq_false htxfp)] at hlast
  · rw [prioOrder, if_pos htxfp] at hlast
    exact (keyLe_iff _ _ _).1 (keyLe_of_getLast?_sortByKey hm hlast)

/-- Settles O29: each clause compares the first part in which the two keys differ. -/
theorem arbitrationKeyOrdersFrames : Obligations.ArbitrationKeyOrdersFrames := by
  intro x y
  have hxrtr := Bool.toNat_le x.rtr
  refine ⟨fun hstid => ?_, fun hstid hx hy hxe hye hxr hyr => ?_, fun hstid hx hy hxe => ?_,
    fun hstid hx hy hexid => ?_, fun hstid hx hy hexid hxr hyr => ?_⟩
  · have hxexid := x.exid.isLt
    have hide := Bool.toNat_le x.ide
    have hrtr := Bool.toNat_le (if x.ide then true else x.rtr)
    have hlast := Bool.toNat_le (if x.ide then x.rtr else false)
    rw [toNat_arbKey x, toNat_arbKey y]
    omega
  · rw [toNat_arbKey_of_standard hx, toNat_arbKey_of_standard hy, hstid, hxe, hye, hxr, hyr]
    simp
  · rw [toNat_arbKey_of_standard hx, toNat_arbKey_of_extended hy, hstid, hxe]
    simp only [BitVec.ofNat_eq_ofNat, BitVec.toNat_ofNat]
    omega
  · rw [toNat_arbKey_of_extended hx, toNat_arbKey_of_extended hy, hstid]
    omega
  · rw [toNat_arbKey_of_extended hx, toNat_arbKey_of_extended hy, hstid, hexid, hxr, hyr]
    simp

/-- Settles O30: an enabled completion frees the mailbox; only a success sends. -/
theorem completionEndsTheRequest : Obligations.CompletionEndsTheRequest := by
  intro m o ts pad s u hmoves hslak hinak hpending hstrict hart
  have henabled := (txComplete_enabled_iff m o ts pad u).2 ⟨hslak, hinak, hpending, hstrict, hart⟩
  obtain ⟨hmf, htxq⟩ := complete_mf_txq m o ts pad u
  refine ⟨complete m o ts pad u, ?_, completedFlags_eq o u.mf[m] ▸ hmf, htxq, fun hne => ?_⟩
  · rw [step_of_agentMoves _ s u hmoves, agentTurn_of_enabled henabled, agentEffect]
  · rw [complete_of_ne_ok hne]
    rfl

/-- Settles O31: each ground denies one condition of the step. -/
theorem completionNotEnabledChangesNothing : Obligations.CompletionNotEnabledChangesNothing := by
  intro m o ts pad s u hmoves hground
  rw [step_of_agentMoves _ s u hmoves, agentTurn_of_not_enabled]
  rw [txComplete_enabled_iff]
  rintro ⟨hslak, hinak, hpending, hstrict, hart⟩
  rcases hground with h | h | h | ⟨hpar, hhead⟩ | ⟨hpar, hcfg, ho⟩
  · exact Bool.false_ne_true (hslak.symm.trans h)
  · exact Bool.false_ne_true (hinak.symm.trans h)
  · exact Bool.false_ne_true (hpending.symm.trans h)
  · exact hhead (hstrict hpar)
  · rcases hart hpar hcfg with rfl | rfl <;> simp at ho

/-- Settles O32: a success sends `sentFrame` of the mailbox, and nothing but a completion's four fields changes. -/
theorem successSendsTheMailboxFrame : Obligations.SuccessSendsTheMailboxFrame := by
  intro m ts pad s u hmoves hslak hinak hpending hstrict
  have henabled := (txComplete_enabled_iff m .ok ts pad u).2 ⟨hslak, hinak, hpending, hstrict, fun _ _ => .inl rfl⟩
  refine ⟨complete m .ok ts pad u, sentFrame u.mb[m] u.cfg.ttcm pad, ?_, rfl, rfl, rfl, rfl, rfl,
    sentFrame_data_get u.mb[m] u.cfg.ttcm pad, ?_, ?_, complete_frame m .ok ts pad u⟩
  · rw [step_of_agentMoves _ s u hmoves, agentTurn_of_enabled henabled, agentEffect]
  · exact sent_busTx u.mb[m] ts pad (freed m .ok u)
  · have hdeliver := deliver_fifo_congr (s := u) (t := freed m .ok u) rfl rfl rfl (sentFrame u.mb[m] u.cfg.ttcm pad) ts
    rw [complete_ok, sent_fifo, ← hdeliver]
    rfl

/-- Settles O33: TRANSMIT loads the mailbox, the loopback stores its frame as the window, RECEIVE packs it again. -/
theorem loopbackRoundTrip : Obligations.LoopbackRoundTrip := by
  rintro ide w0 w1 w2 s t u m f fifo n ts pad hid hslak hinak hlbkm hfinit hstrict hf hempty hmatch hexec hans hu
  obtain ⟨ws, rfl⟩ := loaded_of_exec_transmit (by decide) hid hexec hans
  obtain ⟨hload, hflags⟩ := loadAndRequest_self m (mailboxOf ide false 8 false w0 w1 w2) s
  have hstored : u.fifo[f] = pushSlot s.cfg.rflm s.fifo[f] ⟨fullDataFrame ide w0 w1 w2, n, ts⟩ :=
    hu ▸ fifo_of_loopback (s := (loadAndRequest m (mailboxOf ide false 8 false w0 w1 w2) s).answer .ok ws) hslak hinak
      hlbkm hfinit hstrict hmatch hload (congrArg MbFlags.tme hflags) ts pad
  obtain ⟨hpending, hwindow, hreleased⟩ := pushSlot_of_empty hempty s.cfg.rflm ⟨fullDataFrame ide w0 w1 w2, n, ts⟩
  rw [← hstored] at hpending hwindow hreleased
  obtain ⟨hr0, hr1, hr2, hr6, hr8, hr16⟩ := receiveWord1_layout ide false 8 n ts
  refine ⟨_, _, exec_receive hf hpending, ?_, hr0, hr1, hr2, hr6, hr8, hr16, ?_⟩
  · rw [hwindow, receiveWords_of_full_data hid]
    rfl
  · show (u.setFifo f (releaseSlot u.fifo[f])).fifo[f].fmp = 0
    rw [State.setFifo_fifo_get, if_pos rfl]
    exact hreleased

end

/-! PROOFS of the statements about reception (43_receive.md). First what RECEIVE reads from any slot and what it
leaves of the FIFO, the flags an arrival sets, and when a frame from the bus is taken; then the statements. -/

namespace Sys2Proof.Machine

/-! What RECEIVE reads (R91, R92, R98, R192). -/

/-- R91: a standard identifier stands in the 11 low bits. -/
theorem idJoin_standard_layout (stid : BitVec 11) (exid : BitVec 18) :
    fieldOf (idJoin false stid exid) 0 11 = stid ∧ fieldOf (idJoin false stid exid) 11 21 = 0 := by
  simp [idJoin]

/-- R91: an extended identifier stands in the 29 low bits, its base part on top. -/
theorem idJoin_extended_layout (stid : BitVec 11) (exid : BitVec 18) :
    fieldOf (idJoin true stid exid) 18 11 = stid ∧ fieldOf (idJoin true stid exid) 0 18 = exid ∧
      fieldOf (idJoin true stid exid) 29 3 = 0 := by
  simp [idJoin]

/-- R92: unpacking undoes packing. -/
theorem dataUnpack_dataPack (d : Payload) : dataUnpack (dataPackLo d) (dataPackHi d) = d :=
  payload_ext fun i => by fin_cases i <;> simp [dataUnpack, dataPackLo, dataPackHi]

/-- R192: a byte is read as stored below `dlc` and as 0 from there on. -/
theorem laneOf_zeroFill (dlc : BitVec 4) (d : Payload) (i : Fin 8) :
    laneOf (dataPackLo (zeroFill dlc d)) (dataPackHi (zeroFill dlc d)) i = if i.val < dlc.toNat then d[i] else 0 := by
  rw [← dataUnpack_get, dataUnpack_dataPack]
  exact bytes8_get _ i

/-- R191: a release takes one frame off the count. -/
theorem toNat_fmp_releaseSlot {x : Fifo} (h : x.fmp ≠ 0) : (releaseSlot x).fmp.toNat + 1 = x.fmp.toNat := by
  simpa using (congrArg List.length (fifoList_eq_window_cons x h)).symm

/-! The flags of an arrival (R190). -/

theorem pushSlot_full (rflm : Bool) (x : Fifo) (y : Slot) :
    (pushSlot rflm x y).full = (x.full || decide (x.fmp.toNat = 2)) := by
  by_cases h : x.fmp.toNat < 3
  · rw [pushSlot_of_lt rflm x y h]
    simp [beq_eq_decide]
  · have h3 := fmp_eq_three_of_not_lt h
    cases rflm with
    | true => simp [pushSlot_locked x y h3, h3]
    | false => simp [pushSlot_unlocked x y h3, h3]

theorem pushSlot_fovr (rflm : Bool) (x : Fifo) (y : Slot) :
    (pushSlot rflm x y).fovr = (x.fovr || decide (x.fmp.toNat = 3)) := by
  by_cases h : x.fmp.toNat < 3
  · rw [pushSlot_of_lt rflm x y h]
    simp [h.ne]
  · have h3 := fmp_eq_three_of_not_lt h
    simp [pushSlot_fovr_of_full h3, h3]

/-- R190: an arrival as an operation on the queue. -/
theorem fifoList_pushSlot (rflm : Bool) (x : Fifo) (y : Slot) :
    fifoList (pushSlot rflm x y) =
      if x.fmp.toNat < 3 then fifoList x ++ [y] else if rflm then fifoList x else (fifoList x).dropLast ++ [y] := by
  split
  next h => exact fifoList_pushSlot_of_lt rflm x y h
  next h =>
    have h3 := fmp_eq_three_of_not_lt h
    cases rflm with
    | true => exact fifoList_pushSlot_locked x y h3
    | false => exact fifoList_pushSlot_unlocked x y h3

/-! When a frame from the bus is taken (R193). -/

/-- The field of all bits from `lo` up is 0 exactly for the words below `2 ^ lo`. -/
theorem fieldOf_high_eq_zero_iff {w : Word} {lo n : Nat} (h : lo + n = 32) :
    fieldOf w lo n = 0 ↔ w.toNat < 2 ^ lo := by
  have hquot : w.toNat / 2 ^ lo < 2 ^ n := Nat.div_lt_of_lt_mul (by rw [← pow_add, h]; exact w.isLt)
  rw [← BitVec.toNat_inj, fieldOf, BitVec.extractLsb'_toNat, Nat.shiftRight_eq_div_pow, Nat.mod_eq_of_lt hquot]
  simp [Nat.div_eq_zero_iff]

theorem idInRange_iff (ide : Bool) (id : Word) :
    idInRange ide id = true ↔ (ide = false → id.toNat < 2 ^ 11) ∧ (ide = true → id.toNat < 2 ^ 29) := by
  cases ide with
  | false => simpa [idInRange] using fieldOf_high_eq_zero_iff (w := id) (lo := 11) (n := 21) rfl
  | true => simpa [idInRange] using fieldOf_high_eq_zero_iff (w := id) (lo := 29) (n := 3) rfl

theorem busRx_enabled_iff (ide rtr : Bool) (id : Word) (dlc : BitVec 4) (payload : Payload) (ts : BitVec 16)
    (s : State) :
    agentEnabled (.busRx ide rtr id dlc payload ts) s = true ↔
      s.mc.slak = false ∧ s.mc.inak = false ∧ dlc.toNat ≤ 8 ∧ (ide = false → id.toNat < 2 ^ 11) ∧
        (ide = true → id.toNat < 2 ^ 29) := by
  simp only [agentEnabled, Bool.and_eq_true, beq_iff_eq, decide_eq_true_eq, mode_eq_normal_iff, idInRange_iff,
    and_assoc]

theorem busFrame_eq (ide rtr : Bool) (id : Word) (dlc : BitVec 4) (payload : Payload) :
    busFrame ide rtr id dlc payload =
      ⟨ide, rtr, if ide then fieldOf id 18 11 else fieldOf id 0 11, if ide then fieldOf id 0 18 else 0, dlc,
        payload⟩ := by
  cases ide <;> rfl

/-- R193: a frame no filter accepts is dropped. -/
theorem deliver_of_no_match {s : State} {fr : Frame} (hmatch : matchFrame s.flt fr = none) (ts : BitVec 16) :
    deliver fr ts s = s := by
  simp [deliver, hmatch]

/-- R139, R190: through the open gate an accepted frame arrives at the FIFO of its match. -/
theorem deliver_of_match {s : State} {fr : Frame} {f : FifoIdx} {n : BitVec 8} (hfinit : s.flt.finit = false)
    (hmatch : matchFrame s.flt fr = some (f, n)) (ts : BitVec 16) :
    deliver fr ts s = s.setFifo f (pushSlot s.cfg.rflm s.fifo[f] ⟨fr, n, ts⟩) := by
  simp [deliver, enqueue, hfinit, hmatch]

end Sys2Proof.Machine

section

open Sys2Proof Sys2Proof.Machine

/-- Settles O34, from the layout of each result word and the release of the window. -/
theorem receiveReadsTheWindowAndReleases : Obligations.ReceiveReadsTheWindowAndReleases := by
  intro fifo f s hf hpending
  refine ⟨releaseSlot s.fifo[f], _, _, _, _, exec_receive hf hpending, toNat_fmp_releaseSlot hpending, rfl, rfl, rfl,
    rfl, fun hide => ?_, fun hide => ?_, ?_⟩
  · rw [window, hide]
    exact idJoin_standard_layout _ _
  · rw [window, hide]
    exact idJoin_extended_layout _ _
  · obtain ⟨hr0, hr1, hr2, hr6, hr8, hr16⟩ := receiveWord1_layout (window s.fifo[f]).frame.ide
      (window s.fifo[f]).frame.rtr (window s.fifo[f]).frame.dlc (window s.fifo[f]).fmi (window s.fifo[f]).ts
    exact ⟨hr0, hr1, hr2, hr6, hr8, hr16, laneOf_zeroFill _ _⟩

/-- Settles O35: the queue and the two flags after an arrival, and the queue after a release. -/
theorem fifoIsAQueueOfThree : Obligations.FifoIsAQueueOfThree := fun rflm x y =>
  ⟨length_fifoList x, fifoList_pushSlot rflm x y, pushSlot_full rflm x y, pushSlot_fovr rflm x y,
    fun h => ⟨fifoList_eq_window_cons x h, rfl, rfl⟩⟩

/-- Settles O37: each ground denies the step or closes the matcher gate; else the frame is delivered. -/
theorem busFrameGoesThroughTheMatcher : Obligations.BusFrameGoesThroughTheMatcher := by
  intro ide rtr id dlc payload ts s u fr hmoves hfr
  have henabled := busRx_enabled_iff ide rtr id dlc payload ts u
  rw [step_of_agentMoves _ s u hmoves]
  refine ⟨fun hground => ?_, fun hslak hinak hdlc hstd hext hfinit => ?_⟩
  · by_cases hon : agentEnabled (.busRx ide rtr id dlc payload ts) u = true
    · obtain ⟨hslak, hinak, hdlc, hstd, hext⟩ := henabled.1 hon
      have hfinit : u.flt.finit = true := by
        rcases hground with h | h | h | ⟨hide, h⟩ | ⟨hide, h⟩ | h
        · exact absurd (hslak.symm.trans h) Bool.false_ne_true
        · exact absurd (hinak.symm.trans h) Bool.false_ne_true
        · exact absurd hdlc h.not_ge
        · exact absurd (hstd hide) h.not_gt
        · exact absurd (hext hide) h.not_gt
        · exact h
      rw [agentTurn_of_enabled hon, agentEffect, deliver_of_finit hfinit]
    · rw [agentTurn_of_not_enabled hon]
  · rw [agentTurn_of_enabled (henabled.2 ⟨hslak, hinak, hdlc, hstd, hext⟩), agentEffect, busFrame_eq, ← hfr]
    rcases hmatch : matchFrame u.flt fr with _ | ⟨f, n⟩
    · rw [deliver_of_no_match hmatch]
    · rw [deliver_of_match hfinit hmatch]
      rfl

end

/-! PROOFS of the statements about the status queries (44_status.md). First the value of a count, when TRANSMIT finds
no mailbox, and the layout of each result word; then the statements. -/

namespace Sys2Proof.Machine

/-! The words of the three short queries (R100, R210 to R212). -/

/-- A field in the low bits has its own value. -/
theorem toNat_fieldAt_zero {n : Nat} (f : BitVec n) (h : n ≤ 32) : (fieldAt 0 f).toNat = f.toNat := by
  simpa using toNat_fieldAt_or f (lo := 0) (w := 0) (by omega) (by decide)

theorem bitAt_zero_eq_ite (b : Bool) : bitAt 0 b = if b then 1 else 0 := by
  revert b
  decide

theorem toNat_countWord {n : Nat} (h : n < 4) : (countWord n).toNat = n := by
  rw [countWord, toNat_fieldAt_zero _ (by decide), BitVec.toNat_ofNat, Nat.mod_eq_of_lt h]

theorem freeCount_eq_card (s : State) :
    freeCount s = (Finset.univ.filter fun m : MbIdx => s.mf[m].tme = true).card := by
  rw [Finset.card_filter, Fin.sum_univ_three]
  simp [freeCount, Bool.toNat, Bool.cond_eq_ite]

theorem freeCount_lt_four (s : State) : freeCount s < 4 := by
  rw [freeCount_eq_card, Nat.lt_succ_iff]
  exact (Finset.card_filter_le _ _).trans_eq (Finset.card_fin 3)

theorem freeCount_eq_zero_iff (s : State) : freeCount s = 0 ↔ anyEmpty s = false := by
  rw [freeCount_eq_card, Finset.card_eq_zero, anyEmpty_eq_false_iff, Finset.filter_eq_empty_iff]
  simp

theorem countWord_freeCount_eq_zero_iff (s : State) : countWord (freeCount s) = 0 ↔ anyEmpty s = false := by
  rw [← freeCount_eq_zero_iff, ← BitVec.toNat_inj, toNat_countWord (freeCount_lt_four s)]
  rfl

/-- R161: the branch that loads a mailbox gives an OK answer, so it is not the refusal. -/
theorem exec_transmit_eq_noMailbox_iff {ide : Bool} {dlc : BitVec 4} {w0 : Word} (hdlc : dlc.toNat ≤ 8)
    (hid : idInRange ide w0 = true) (rtr tgt : Bool) (w1 w2 : Word) (s : State) :
    exec (.transmit ide rtr dlc tgt 0 w0 w1 w2) s = raise .failNoMailbox s ↔ anyEmpty s = false := by
  rw [exec_transmit hdlc hid]
  split
  next hnone => exact iff_of_true rfl hnone
  next hsome =>
    refine iff_of_false (fun heq => ?_) hsome
    have hanswers := congrArg State.answers (Host.Outcome.next.inj heq)
    simp [loadAndRequest] at hanswers

/-! The result words of the read-backs (R100). -/

theorem cfgWord0_layout (c : Cfg) :
    bitOf (cfgWord0 c) 0 = c.lbkm ∧ bitOf (cfgWord0 c) 1 = c.silm ∧ fieldOf (cfgWord0 c) 2 3 = 0 ∧
      bitOf (cfgWord0 c) 5 = c.ttcm ∧ bitOf (cfgWord0 c) 6 = c.abom ∧ bitOf (cfgWord0 c) 7 = c.awum ∧
      bitOf (cfgWord0 c) 8 = c.art ∧ bitOf (cfgWord0 c) 9 = c.rflm ∧ bitOf (cfgWord0 c) 10 = c.txfp ∧
      fieldOf (cfgWord0 c) 11 21 = 0 := by
  simp [cfgWord0]

theorem cfgWord1_layout (c : Cfg) :
    fieldOf (cfgWord1 c) 0 4 = c.ts1 ∧ fieldOf (cfgWord1 c) 4 4 = 0 ∧ fieldOf (cfgWord1 c) 8 3 = c.ts2 ∧
      fieldOf (cfgWord1 c) 11 5 = 0 ∧ fieldOf (cfgWord1 c) 16 10 = c.brp ∧ fieldOf (cfgWord1 c) 26 6 = 0 := by
  simp [cfgWord1]

theorem msrWord_layout (c : ModeCtl) (finit : Bool) :
    bitOf (msrWord c finit) 0 = c.initRq ∧ bitOf (msrWord c finit) 1 = c.sleepRq ∧
      bitOf (msrWord c finit) 2 = c.inak ∧ bitOf (msrWord c finit) 3 = c.slak ∧ bitOf (msrWord c finit) 4 = finit ∧
      fieldOf (msrWord c finit) 5 27 = 0 := by
  simp [msrWord]

theorem rfrWord_layout (x : Fifo) :
    fieldOf (rfrWord x) 0 2 = x.fmp ∧ bitOf (rfrWord x) 2 = x.full ∧ bitOf (rfrWord x) 3 = x.fovr ∧
      fieldOf (rfrWord x) 4 28 = 0 := by
  simp [rfrWord]

theorem esrWord_layout (e : ErrStatus) :
    bitOf (esrWord e) 0 = e.ewg ∧ bitOf (esrWord e) 1 = e.epv ∧ bitOf (esrWord e) 2 = e.bof ∧
      bitOf (esrWord e) 3 = e.merr ∧ fieldOf (esrWord e) 4 3 = e.lec ∧ bitOf (esrWord e) 7 = false ∧
      fieldOf (esrWord e) 8 3 = e.lecSnap ∧ fieldOf (esrWord e) 11 21 = 0 := by
  simp [esrWord]

theorem ierWord_layout (n : Notify) :
    fieldOf (ierWord n) 0 19 = n.en ∧ bitOf (ierWord n) 19 = n.errie ∧ fieldOf (ierWord n) 20 12 = 0 := by
  simp [ierWord]

theorem fbankWord_layout (x : Filters) (b : BankIdx) :
    bitOf (fbankWord x b) 0 = x.act.getLsbD b.val ∧ bitOf (fbankWord x b) 1 = x.fbm.getLsbD b.val ∧
      bitOf (fbankWord x b) 2 = x.fsc.getLsbD b.val ∧ bitOf (fbankWord x b) 3 = x.ffa.getLsbD b.val ∧
      fieldOf (fbankWord x b) 4 28 = 0 := by
  simp [fbankWord]

/-- R215: the code in the two low bits; the three bits above the empty flags are 0. -/
theorem tsrWord_code (c : MbIdx) (mf : Vector MbFlags 3) :
    (fieldOf (tsrWord c mf) 0 2).toNat = c.val ∧ fieldOf (tsrWord c mf) 5 3 = 0 := by
  have hc : c.val < 4 := by omega
  simp [tsrWord, tsrFlags, Nat.mod_eq_of_lt hc]

/-- R215: once the mailbox is fixed, each of its flags has a position of its own in the word. -/
theorem tsrWord_mailbox (c : MbIdx) (mf : Vector MbFlags 3) (m : MbIdx) :
    bitOf (tsrWord c mf) (2 + m.val) = mf[m].tme ∧ bitOf (tsrWord c mf) (8 + 8 * m.val) = mf[m].rqcp ∧
      bitOf (tsrWord c mf) (9 + 8 * m.val) = mf[m].txok ∧ bitOf (tsrWord c mf) (10 + 8 * m.val) = mf[m].alst ∧
      bitOf (tsrWord c mf) (11 + 8 * m.val) = mf[m].terr ∧ bitOf (tsrWord c mf) (12 + 8 * m.val) = mf[m].abrt ∧
      fieldOf (tsrWord c mf) (13 + 8 * m.val) 3 = 0 := by
  match m with
  | 0 | 1 | 2 => simp [tsrWord, tsrFlags]

end Sys2Proof.Machine

section

open Sys2Proof Sys2Proof.Machine

/-- Settles O38: both sides of the equivalence say that no mailbox is empty. -/
theorem freeCountCountsEmptyMailboxes : Obligations.FreeCountCountsEmptyMailboxes := by
  intro s
  refine ⟨⟨_, exec_freeCount s, ?_, fun ide rtr dlc tgt w0 w1 w2 hdlc hid => ?_⟩, fun rsvd hrsvd => ?_⟩
  · exact (toNat_countWord (freeCount_lt_four s)).trans (freeCount_eq_card s)
  · calc countWord (freeCount s) = 0
      _ ↔ anyEmpty s = false := countWord_freeCount_eq_zero_iff s
      _ ↔ exec (.transmit ide rtr dlc tgt 0 w0 w1 w2) s = raise .failNoMailbox s :=
        (exec_transmit_eq_noMailbox_iff hdlc hid rtr tgt w1 w2 s).symm
  · exact exec_of_illFormed (i := .freeCount rsvd) (beq_eq_false_iff_ne.2 hrsvd) s

/-- Settles O39: the flag as bit 0, the count as the two low bits of the result word. -/
theorem mailboxAndFifoQueries : Obligations.MailboxAndFifoQueries := by
  intro s
  refine ⟨fun index h => ?_, fun fifo f hf => ?_⟩
  · rw [exec_mboxPending h, bitAt_zero_eq_ite]
    rfl
  · obtain rfl : fifoIdx fifo = f := Fin.ext hf
    exact ⟨_, exec_fifoCount fifo s, toNat_fieldAt_zero _ (by decide)⟩

/-- Settles O40, from the layouts of the three words. -/
theorem configurationAndModeReadBack : Obligations.ConfigurationAndModeReadBack := by
  intro s
  obtain ⟨hlbkm, hsilm, hgap, httcm, habom, hawum, hart, hrflm, htxfp, hhigh⟩ := cfgWord0_layout s.cfg
  exact ⟨⟨_, _, exec_rdCfg s, hlbkm, hsilm, hgap, httcm, habom, hawum, hart, hrflm, htxfp, hhigh,
    cfgWord1_layout s.cfg⟩, _, exec_rdMsr s, msrWord_layout s.mc s.flt.finit⟩

/-- Settles O41, from the layout of the word for each mailbox. -/
theorem transmitStatusReadBack : Obligations.TransmitStatusReadBack := by
  intro s
  obtain ⟨hcode, hgap⟩ := tsrWord_code (code s) s.mf
  exact ⟨_, exec_rdTsr s, hcode, tsrWord_mailbox (code s) s.mf, hgap⟩

/-- Settles O42, from the layouts of the four words. -/
theorem fifoErrorEnableAndBankReadBack : Obligations.FifoErrorEnableAndBankReadBack := by
  intro s
  refine ⟨fun fifo f hf => ?_, ⟨_, exec_rdEsr s, esrWord_layout s.err⟩, ⟨_, exec_rdIer s, ierWord_layout s.ntf⟩,
    fun bank h => ⟨_, exec_rdFbank h s, fbankWord_layout s.flt ⟨bank.toNat, h⟩⟩⟩
  obtain rfl : fifoIdx fifo = f := Fin.ext hf
  exact ⟨_, exec_rdRfr fifo s, rfrWord_layout _⟩

end

/-! PROOFS of the statements about the notifications (45_notify.md). First the writes of the table, the links of the
dispatch chains, the result words of the entries, what an entry can do, and the latched clear; then the statements. -/

namespace Sys2Proof.Machine

/-! The notification table (R36, R37, R230, R231). -/

/-- Writing one bit of a vector through its one-hot mask. -/
theorem getLsbD_writeBit {n : Nat} (x : BitVec n) (i : Nat) {j : Nat} (hj : j < n) (v : Bool) :
    ((x &&& ~~~(1#n <<< i)) ||| (if v then 1#n <<< i else 0)).getLsbD j = if j = i then v else x.getLsbD j := by
  have hsel : (1#n <<< i).getLsbD j = decide (j = i) := by
    rw [← BitVec.twoPow_eq, BitVec.getLsbD_twoPow]
    grind
  have hchosen : (if v then 1#n <<< i else 0).getLsbD j = (v && decide (j = i)) := by
    cases v with
    | true => exact hsel.trans (Bool.true_and _).symm
    | false => exact BitVec.getLsbD_zero
  rw [BitVec.getLsbD_or, BitVec.getLsbD_and, BitVec.getLsbD_not, hsel, hchosen]
  by_cases hji : j = i <;> simp [hji, hj]

theorem getLsbD_putKind (x : BitVec 19) (k k' : KindIdx) (v : Bool) :
    (putKind x k v).getLsbD k'.val = if k'.val = k.val then v else x.getLsbD k'.val :=
  getLsbD_writeBit x k.val k'.isLt v

theorem getLsbD_enableKind_en (k k' : KindIdx) (h : Word) (x : Notify) :
    (enableKind k h x).en.getLsbD k'.val = (x.en.getLsbD k'.val || decide (k'.val = k.val)) := by
  rw [enableKind, getLsbD_putKind]
  by_cases hk : k'.val = k.val <;> simp [hk]

theorem enableKind_cb_get (k k' : KindIdx) (h : Word) (x : Notify) :
    (enableKind k h x).cb[k'] = if k'.val = k.val then h else x.cb[k'] := by
  simp [enableKind, Vector.getElem_set, eq_comm]

theorem getLsbD_disableKind_en (k k' : KindIdx) (x : Notify) :
    (disableKind k x).en.getLsbD k'.val = (x.en.getLsbD k'.val && decide (k'.val ≠ k.val)) := by
  rw [disableKind, getLsbD_putKind]
  by_cases hk : k'.val = k.val <;> simp [hk]

/-! The dispatch chains (R232, R237, R238). -/

/-- The kind and the clear action of a link. -/
def Link.event (l : Link) : KindIdx × ClearAct := (l.kind, l.act)

/-- R235: one chain behind another is asked when the first finds nothing. -/
theorem chain_append (l₁ l₂ : List Link) : chain (l₁ ++ l₂) = (chain l₁).or (chain l₂) := by
  induction l₁ with
  | nil => rfl
  | cons a l ih =>
    rw [List.cons_append, chain, chain, ih]
    split <;> rfl

theorem map_event_chain_cons (l : Link) (ls : List Link) :
    (chain (l :: ls)).map Link.event = if l.pred = true then some l.event else (chain ls).map Link.event := by
  rw [chain]
  split <;> rfl

theorem notEmpty_iff (s : State) (f : FifoIdx) : notEmpty s f = true ↔ s.fifo[f].fmp ≠ 0 := bne_iff_ne

theorem enabled_fifoKind (s : State) (f : FifoIdx) (j : Fin 3) :
    enabled s (fifoKind f j) = s.ntf.en.getLsbD (9 + j.val + 3 * f.val) :=
  congrArg s.ntf.en.getLsbD (Nat.add_right_comm ..)

theorem map_event_rxChain (s : State) (f : FifoIdx) : (chain (rxChain s f)).map Link.event = selectRx s f := by
  simp only [rxChain, map_event_chain_cons, enabled_fifoKind, Bool.and_eq_true, notEmpty_iff]
  rfl

theorem map_event_sceChain (s : State) : (chain (sceChain s)).map Link.event = selectErr s := by
  cases herrie : s.ntf.errie with
  | false => simp [sceChain, selectErr, chain, herrie]
  | true =>
    simp only [sceChain, selectErr, map_event_chain_cons, herrie, Bool.true_and, Bool.and_eq_true]
    rfl

theorem map_event_thirdChain (s : State) :
    (chain (rxChain s 1 ++ sceChain s)).map Link.event = (selectRx s 1).or (selectErr s) := by
  rw [chain_append, Option.map_or, map_event_rxChain, map_event_sceChain]

theorem kind_lt_of_mem_rxChain {s : State} {f : FifoIdx} {l : Link} (h : l ∈ rxChain s f) : l.kind.val < 15 := by
  have hf := f.isLt
  simp only [rxChain, List.mem_cons, List.not_mem_nil, or_false] at h
  obtain rfl | rfl | rfl := h <;> simp [fifoKind] <;> omega

/-- R237: a link of a FIFO's chain holds only for an enabled kind. -/
theorem enabled_of_mem_rxChain {s : State} {f : FifoIdx} {l : Link} (h : l ∈ rxChain s f) (hp : l.pred = true) :
    enabled s l.kind = true := by
  simp only [rxChain, List.mem_cons, List.not_mem_nil, or_false] at h
  obtain rfl | rfl | rfl := h <;> exact (Bool.and_eq_true_iff.1 hp).1

/-- R238: a link of the status chain holds only under the umbrella and for an enabled kind. -/
theorem enabled_of_mem_sceChain {s : State} {l : Link} (h : l ∈ sceChain s) (hp : l.pred = true) :
    s.ntf.errie = true ∧ enabled s l.kind = true := by
  simp only [sceChain, List.mem_cons, List.not_mem_nil, or_false] at h
  obtain rfl | rfl | rfl | rfl := h <;> exact Bool.and_eq_true_iff.1 (Bool.and_eq_true_iff.1 hp).1

/-- R231 (c), R238: kind `k` may be handed out: it is enabled, an error kind under the umbrella too. -/
def MayHandOut (s : State) (k : KindIdx) : Prop := enabled s k = true ∧ (15 ≤ k.val → s.ntf.errie = true)

theorem mayHandOut_of_rxChain {s : State} {f : FifoIdx} {l : Link} (h : l ∈ rxChain s f) (hp : l.pred = true) :
    MayHandOut s l.kind :=
  ⟨enabled_of_mem_rxChain h hp, fun hk => absurd (kind_lt_of_mem_rxChain h) hk.not_gt⟩

theorem mayHandOut_of_thirdChain {s : State} {l : Link} (h : l ∈ rxChain s 1 ++ sceChain s) (hp : l.pred = true) :
    MayHandOut s l.kind := by
  obtain hrx | hsce := List.mem_append.1 h
  · exact mayHandOut_of_rxChain hrx hp
  · obtain ⟨herrie, hen⟩ := enabled_of_mem_sceChain hsce hp
    exact ⟨hen, fun _ => herrie⟩

/-! The mailbox an entry serves (R233). -/

theorem firstComplete_eq_some {s : State} {m : MbIdx} (hm : s.mf[m].rqcp = true)
    (hleast : ∀ m' : MbIdx, m' < m → s.mf[m'].rqcp = false) : firstComplete s = some m := by
  match m with
  | 0 => exact if_pos hm
  | 1 => exact (if_neg (Bool.eq_false_iff.1 (hleast 0 (by decide)))).trans (if_pos hm)
  | 2 =>
    exact (if_neg (Bool.eq_false_iff.1 (hleast 0 (by decide)))).trans
      ((if_neg (Bool.eq_false_iff.1 (hleast 1 (by decide)))).trans (if_pos hm))

theorem firstComplete_eq_none {s : State} (h : ∀ m : MbIdx, s.mf[m].rqcp = false) : firstComplete s = none :=
  (if_neg (Bool.eq_false_iff.1 (h 0))).trans
    ((if_neg (Bool.eq_false_iff.1 (h 1))).trans (if_neg (Bool.eq_false_iff.1 (h 2))))

/-- R169: a completed mailbox has exactly one outcome flag. -/
theorem abrt_eq_of_complete {x : MbFlags} (hx : FlagsInv x) (hr : x.rqcp = true) :
    x.abrt = (!x.txok && !x.alst && !x.terr) := by
  have hone : ∀ a b c d : Bool, a.toNat + b.toNat + c.toNat + d.toNat = 1 → d = (!a && !b && !c) := by decide
  obtain ⟨hcount, -⟩ := hx
  exact hone _ _ _ _ (hcount.trans (congrArg Bool.toNat hr))

/-- R233: with one outcome flag set, the order in which the entry asks for the four does not matter. -/
theorem completionKind_eq_some {m : MbIdx} {k : KindIdx} {x : MbFlags} (hx : FlagsInv x) (hr : x.rqcp = true)
    (hk : k.val = 3 * m.val + (if x.txok then 0 else if x.abrt then 1 else 2)) : completionKind m x = some k := by
  have hkind {j : Fin 3} (hj : k.val = 3 * m.val + j.val) : some (mbKind m j) = some k :=
    congrArg some (Fin.ext hj.symm)
  obtain ⟨tme, rqcp, txok, alst, terr, abrt⟩ := x
  obtain rfl : abrt = (!txok && !alst && !terr) := abrt_eq_of_complete hx hr
  cases txok with
  | true => exact hkind hk
  | false =>
    cases alst with
    | true => exact hkind hk
    | false =>
      cases terr with
      | true | false => exact hkind hk

theorem completionKind_lt {m : MbIdx} {k : KindIdx} {x : MbFlags} (h : completionKind m x = some k) : k.val < 9 := by
  have hkind {j : Fin 3} (hj : some (mbKind m j) = some k) : k.val < 9 := by
    rw [← Option.some.inj hj]
    simp only [mbKind]
    omega
  unfold completionKind at h
  split_ifs at h <;> exact hkind h

/-! The result words of the entries (R99). -/

theorem vectorWord_layout (k : KindIdx) (ev kv call : Bool) :
    (fieldOf (vectorWord k ev kv call) 0 5).toNat = k.val ∧ fieldOf (vectorWord k ev kv call) 5 3 = 0 ∧
      bitOf (vectorWord k ev kv call) 8 = ev ∧ bitOf (vectorWord k ev kv call) 9 = kv ∧
      bitOf (vectorWord k ev kv call) 10 = call ∧ fieldOf (vectorWord k ev kv call) 11 21 = 0 := by
  have hk : k.val < 32 := by omega
  simp [vectorWord, Nat.mod_eq_of_lt hk]

/-- R99: VEC_TX's `r0` holds the shared part below bit 12 and the mailbox with its outcome flags above. -/
theorem vectorTxWord_layout (k : KindIdx) (ev kv call : Bool) (m : MbIdx) (fl : MbFlags) {r0 : Word}
    (h : r0 = (vectorWord k ev kv call ||| vectorTxWord m fl)) :
    (fieldOf r0 0 5).toNat = k.val ∧ fieldOf r0 5 3 = 0 ∧ bitOf r0 8 = ev ∧ bitOf r0 9 = kv ∧ bitOf r0 10 = call ∧
      bitOf r0 11 = false ∧ (fieldOf r0 12 2).toNat = m.val ∧ fieldOf r0 14 2 = 0 ∧ bitOf r0 16 = fl.txok ∧
      bitOf r0 17 = fl.alst ∧ bitOf r0 18 = fl.terr ∧ bitOf r0 19 = fl.abrt ∧ fieldOf r0 20 12 = 0 := by
  subst h
  have hk : k.val < 32 := by omega
  have hm : m.val < 4 := by omega
  simp [vectorWord, vectorTxWord, Nat.mod_eq_of_lt hk, Nat.mod_eq_of_lt hm]

theorem hasCallback_iff (s : State) (k : KindIdx) : hasCallback s k = true ↔ s.ntf.cb[k] ≠ 0 := bne_iff_ne

/-- R37: a null handle is handed out as it is, 0. -/
theorem ite_hasCallback_handle (s : State) (k : KindIdx) :
    (if hasCallback s k then s.ntf.cb[k] else 0) = s.ntf.cb[k] := by
  split
  · rfl
  next hnull => exact (not_not.1 (mt (hasCallback_iff s k).2 hnull)).symm

/-- R233: an enabled kind hands out its handle, null or not. -/
theorem ite_enabled_handle (s : State) (k : KindIdx) :
    (if enabled s k && hasCallback s k then s.ntf.cb[k] else 0) = if enabled s k then s.ntf.cb[k] else 0 := by
  cases enabled s k with
  | true => exact ite_hasCallback_handle s k
  | false => rfl

theorem handsOut_vectorWord (s : State) (k : KindIdx) :
    HandsOut s k (vectorWord k true true (hasCallback s k)) (if hasCallback s k then s.ntf.cb[k] else 0) := by
  obtain ⟨hkind, hgap, hev, hkv, hcall, hhigh⟩ := vectorWord_layout k true true (hasCallback s k)
  exact ⟨hkind, hgap, hev, hkv, by rw [hcall, hasCallback_iff], hhigh, ite_hasCallback_handle s k⟩

/-- R231 (c): `r0`, `r1` ask for no callback and hand out 0, or hand out the handle, not null, of a kind that may be
handed out. -/
def OffersOnlyEnabled (s : State) (r0 r1 : Word) : Prop :=
  (bitOf r0 10 = false → r1 = 0) ∧
    (bitOf r0 10 = true → ∃ k : KindIdx, (fieldOf r0 0 5).toNat = k.val ∧ MayHandOut s k ∧ r1 = s.ntf.cb[k] ∧ r1 ≠ 0)

theorem offersOnlyEnabled_none {s : State} {r0 : Word} (h : bitOf r0 10 = false) : OffersOnlyEnabled s r0 0 :=
  ⟨fun _ => rfl, fun hcall => absurd (h.symm.trans hcall) Bool.false_ne_true⟩

/-- The words of an entry that asks for a callback only when the kind may be handed out with a handle. -/
theorem offersOnlyEnabled_kind {s : State} {r0 : Word} {k : KindIdx} {call : Bool}
    (hkind : (fieldOf r0 0 5).toNat = k.val) (hbit : bitOf r0 10 = call)
    (hcall : call = true → MayHandOut s k ∧ hasCallback s k = true) :
    OffersOnlyEnabled s r0 (if call then s.ntf.cb[k] else 0) := by
  cases call with
  | false => exact offersOnlyEnabled_none hbit
  | true =>
    obtain ⟨hmay, hcb⟩ := hcall rfl
    exact ⟨fun hno => absurd (hno.symm.trans hbit) Bool.false_ne_true,
      fun _ => ⟨k, hkind, hmay, rfl, (hasCallback_iff s k).1 hcb⟩⟩

theorem vecTxWords_offersOnlyEnabled (m : MbIdx) (s : State) :
    ∃ r0 r1, vecTxWords m s = [r0, r1] ∧ OffersOnlyEnabled s r0 r1 := by
  unfold vecTxWords
  split
  next =>
    obtain ⟨-, -, -, -, hbit, -⟩ := vectorTxWord_layout 0 true false false m s.mf[m] rfl
    exact ⟨_, _, rfl, offersOnlyEnabled_none hbit⟩
  next k hk =>
    obtain ⟨hkind, -, -, -, hbit, -⟩ :=
      vectorTxWord_layout k true true (enabled s k && hasCallback s k) m s.mf[m] rfl
    refine ⟨_, _, rfl, offersOnlyEnabled_kind hkind hbit fun hcall => ?_⟩
    obtain ⟨hen, hcb⟩ := Bool.and_eq_true_iff.1 hcall
    exact ⟨⟨hen, fun herr => absurd (completionKind_lt hk) (by omega)⟩, hcb⟩

/-! What a vector entry can do (R233 to R241, R268). -/

theorem exec_vecTx_of_none {s : State} (h : firstComplete s = none) : exec (.vecTx 0) s =
    if s.vl[(0 : VecIdx)].valid then raise .errProtocol s else returnOk [0, 0] (s.setVl 0 ⟨true, .none⟩) := by
  simp [exec, execVecTx, h]

theorem exec_vecTx_of_some {s : State} {m : MbIdx} (h : firstComplete s = some m) : exec (.vecTx 0) s =
    if s.vl[(0 : VecIdx)].valid then raise .errProtocol s
    else returnOk (vecTxWords m s) (s.setVl 0 ⟨true, .clrRqcp m⟩) := by
  simp [exec, execVecTx, h]

theorem exec_vecRx0 (s : State) : exec (.vecRx0 0) s =
    if s.vl[(1 : VecIdx)].valid then raise .errProtocol s else vectorEntry 1 (rxChain s 0) s := rfl

theorem exec_vecRx1Sce (s : State) : exec (.vecRx1Sce 0) s =
    if s.vl[(2 : VecIdx)].valid then raise .errProtocol s else vectorEntry 2 (rxChain s 1 ++ sceChain s) s := rfl

/-- Everything an entry of vector `v` can do. -/
inductive EntryEffect (v : VecIdx) (s : State) : State → Prop where
  /-- R268: a service is open already. -/
  | refused (hopen : s.vl[v].valid = true) : EntryEffect v s (s.answer .errProtocol [])
  /-- R239: the service is opened and two words are answered. -/
  | opened (hclosed : s.vl[v].valid = false) (a : ClearAct) (snap : BitVec 3) {r0 r1 : Word}
      (hoffer : OffersOnlyEnabled s r0 r1) :
      EntryEffect v s (((s.setErr { s.err with lecSnap := snap }).setVl v ⟨true, a⟩).answer .ok [r0, r1])

/-- An operation that answers with an effect of an entry. -/
def HasEntryEffect (v : VecIdx) (s : State) (r : Result) : Prop := ∃ t, r = .next t ∧ EntryEffect v s t

theorem hasEntryEffect_check {v : VecIdx} {s : State} {r : Result}
    (h : s.vl[v].valid = false → HasEntryEffect v s r) :
    HasEntryEffect v s (if s.vl[v].valid then raise .errProtocol s else r) := by
  split
  next hopen => exact ⟨_, rfl, .refused hopen⟩
  next hclosed => exact h (Bool.eq_false_iff.2 hclosed)

/-- A chain whose links hold only for kinds that may be handed out. -/
theorem hasEntryEffect_vectorEntry {v : VecIdx} {s : State} {links : List Link} (hclosed : s.vl[v].valid = false)
    (hlinks : ∀ l ∈ links, l.pred = true → MayHandOut s l.kind) : HasEntryEffect v s (vectorEntry v links s) := by
  rcases vectorEntry_cases v links s with ⟨-, h⟩ | ⟨l, hl, h⟩
  · exact ⟨_, h, .opened hclosed .none s.err.lecSnap (offersOnlyEnabled_none (bitOf_zero 10))⟩
  · obtain ⟨hkind, -, -, -, hbit, -⟩ := vectorWord_layout l.kind true true (hasCallback s l.kind)
    have hmay := hlinks l (mem_of_chain_eq_some hl) (chain_eq_some links l hl).1
    have hoffer := offersOnlyEnabled_kind hkind hbit fun hcb => ⟨hmay, hcb⟩
    refine ⟨_, h, ?_⟩
    split
    · exact .opened hclosed l.act s.err.lec hoffer
    · exact .opened hclosed l.act s.err.lecSnap hoffer

theorem hasEntryEffect_exec (v : VecIdx) (s : State) : HasEntryEffect v s (exec (entryOf v) s) := by
  match v with
  | 0 =>
    show HasEntryEffect 0 s (exec (.vecTx 0) s)
    cases hfirst : firstComplete s with
    | none =>
      rw [exec_vecTx_of_none hfirst]
      exact hasEntryEffect_check fun hclosed =>
        ⟨_, rfl, .opened hclosed .none s.err.lecSnap (offersOnlyEnabled_none (bitOf_zero 10))⟩
    | some m =>
      obtain ⟨r0, r1, hwords, hoffer⟩ := vecTxWords_offersOnlyEnabled m s
      rw [exec_vecTx_of_some hfirst, hwords]
      exact hasEntryEffect_check fun hclosed => ⟨_, rfl, .opened hclosed (.clrRqcp m) s.err.lecSnap hoffer⟩
  | 1 =>
    show HasEntryEffect 1 s (exec (.vecRx0 0) s)
    rw [exec_vecRx0]
    exact hasEntryEffect_check fun hclosed =>
      hasEntryEffect_vectorEntry hclosed fun _ hl hp => mayHandOut_of_rxChain hl hp
  | 2 =>
    show HasEntryEffect 2 s (exec (.vecRx1Sce 0) s)
    rw [exec_vecRx1Sce]
    exact hasEntryEffect_check fun hclosed =>
      hasEntryEffect_vectorEntry hclosed fun _ hl hp => mayHandOut_of_thirdChain hl hp

/-! The latched clear (R236, R269). -/

theorem clearFlag_mf_get (a : ClearAct) (s : State) (m : MbIdx) :
    (clearFlag a s).mf[m] = if a = .clrRqcp m then ⟨s.mf[m].tme, false, false, false, false, false⟩ else s.mf[m] := by
  cases a with
  | clrRqcp k =>
    rw [clearFlag, State.setMf_mf_get]
    by_cases hk : k = m
    · subst k
      simp [clearCompletion]
    · simp [hk]
  | none | clrFull | clrFovr | clrEwg | clrEpv | clrBof | clrMerr => rfl

theorem clearFlag_fifo_get (a : ClearAct) (s : State) (f : FifoIdx) :
    (clearFlag a s).fifo[f] = { s.fifo[f] with
      full := s.fifo[f].full && decide (a ≠ .clrFull f)
      fovr := s.fifo[f].fovr && decide (a ≠ .clrFovr f) } := by
  cases a with
  | clrFull g | clrFovr g =>
    rw [clearFlag, State.setFifo_fifo_get]
    by_cases hg : g = f
    · subst g
      simp
    · simp [hg]
  | none | clrRqcp | clrEwg | clrEpv | clrBof | clrMerr => simp [clearFlag]

theorem clearFlag_err (a : ClearAct) (s : State) :
    (clearFlag a s).err = { s.err with
      ewg := s.err.ewg && decide (a ≠ .clrEwg)
      epv := s.err.epv && decide (a ≠ .clrEpv)
      bof := s.err.bof && decide (a ≠ .clrBof)
      merr := s.err.merr && decide (a ≠ .clrMerr) } := by
  cases a <;> simp [clearFlag]

end Sys2Proof.Machine

section

open Sys2Proof Sys2Proof.Machine

/-- Settles O44: the refusal is R260's; the accepted write is one named update of the table. -/
theorem notificationEnabledAtomically : Obligations.NotificationEnabledAtomically := by
  refine ⟨fun kind rsvd w s hill => exec_of_illFormed ?_ s, fun kind hkind w s => ?_⟩
  · simpa [Instr.wellFormed, or_iff_not_imp_left] using hill
  · exact ⟨_, exec_notifyEn hkind w s, rfl, fun k => ⟨getLsbD_enableKind_en _ k w s.ntf, enableKind_cb_get _ k w s.ntf⟩⟩

/-- Settles O45, from the one-hot write of the enable bit. -/
theorem notificationDisabledKeepsItsHandle : Obligations.NotificationDisabledKeepsItsHandle := by
  intro kind hkind s
  exact ⟨_, exec_notifyDis hkind s, rfl, rfl, fun k => getLsbD_disableKind_en _ k s.ntf⟩

/-- Settles O46: the least completed mailbox and its kind are the ones the entry finds. -/
theorem transmitVectorServesTheLeastMailbox : Obligations.TransmitVectorServesTheLeastMailbox := by
  intro s hclosed
  have hnot : ¬ s.vl[(0 : VecIdx)].valid = true := Bool.eq_false_iff.1 hclosed
  refine ⟨fun m k hm hleast hflags hk => ?_, fun hnone => ?_⟩
  · have hkind := completionKind_eq_some hflags hm hk
    obtain ⟨hfield, hgap, hev, hkv, hcall, hcallGap, hmailbox, hmailboxGap, htxok, halst, hterr, habrt, hhigh⟩ :=
      vectorTxWord_layout k true true (enabled s k && hasCallback s k) m s.mf[m] rfl
    refine ⟨_, if enabled s k && hasCallback s k then s.ntf.cb[k] else 0, ?_, hfield, hgap, hev, hkv, ?_,
      hcallGap, hmailbox, hmailboxGap, htxok, halst, hterr, habrt, hhigh, ite_enabled_handle s k⟩
    · rw [exec_vecTx_of_some (firstComplete_eq_some hm hleast), if_neg hnot, vecTxWords, hkind]
      rfl
    · rw [hcall, Bool.and_eq_true, hasCallback_iff]
      rfl
  · rw [exec_vecTx_of_none (firstComplete_eq_none hnone), if_neg hnot]
    rfl

/-- Settles O47: the chain of FIFO 0 finds what R237's order selects, never kind 18. -/
theorem receiveVectorSelectsInOrder : Obligations.ReceiveVectorSelectsInOrder := by
  intro s hclosed
  have hexec := (exec_vecRx0 s).trans (if_neg (Bool.eq_false_iff.1 hclosed))
  rw [hexec, ← map_event_rxChain]
  rcases vectorEntry_cases 1 (rxChain s 0) s with ⟨hl, h⟩ | ⟨l, hl, h⟩
  · rw [h, hl]
    exact ⟨0, 0, .none, rfl, rfl, rfl, rfl⟩
  · have hkind := kind_lt_of_mem_rxChain (mem_of_chain_eq_some hl)
    have hne : l.kind ≠ 18 := fun heq => absurd hkind (by rw [heq]; decide)
    rw [h, hl, if_neg hne]
    exact ⟨_, _, l.act, rfl, rfl, handsOut_vectorWord s l.kind⟩

/-- Settles O48: FIFO 1's chain before the status chain, each as its own selection. -/
theorem sharedVectorSelectsFifoBeforeErrors : Obligations.SharedVectorSelectsFifoBeforeErrors := by
  intro s hclosed
  have hexec := (exec_vecRx1Sce s).trans (if_neg (Bool.eq_false_iff.1 hclosed))
  rw [hexec, ← map_event_thirdChain]
  rcases vectorEntry_cases 2 (rxChain s 1 ++ sceChain s) s with ⟨hl, h⟩ | ⟨l, hl, h⟩
  · rw [h, hl]
    exact ⟨0, 0, .none, s.err.lecSnap, rfl, rfl, rfl, rfl, rfl⟩
  · rw [h, hl]
    refine ⟨_, _, l.act, if l.kind = 18 then s.err.lec else s.err.lecSnap, ?_, rfl, handsOut_vectorWord s l.kind, rfl⟩
    split <;> rfl

/-- Settles O49, from what the latched clear does to each flag. -/
theorem vectorDonePerformsTheLatchedClear : Obligations.VectorDonePerformsTheLatchedClear := by
  intro vector v s hv hopen
  have hlt : vector.toNat < 3 := by omega
  obtain rfl : (⟨vector.toNat, hlt⟩ : VecIdx) = v := Fin.ext hv
  refine ⟨_, _, _, s.vl[(⟨vector.toNat, hlt⟩ : VecIdx)].act, ?_, clearFlag_mf_get _ s, clearFlag_fifo_get _ s,
    clearFlag_err _ s⟩
  rw [exec_vecDone hlt, if_pos hopen, vectorReturn, clearFlag_frame]
  rfl

/-- Settles O50: the words of an opened service; a refusal answers no OK. -/
theorem disabledKindIsNeverHandedOut : Obligations.DisabledKindIsNeverHandedOut := by
  intro v s t r0 r1 hexec hans
  obtain ⟨t', ht, heff⟩ := hasEntryEffect_exec v s
  obtain rfl : t' = t := Host.Outcome.next.inj (ht.symm.trans hexec)
  cases heff with
  | refused => simp at hans
  | @opened _ a snap r0' r1' hoffer =>
    obtain ⟨rfl, rfl⟩ : r0' = r0 ∧ r1' = r1 := by simpa using hans
    obtain ⟨hnull, hcall⟩ := hoffer
    refine ⟨hnull, fun hbit => ?_⟩
    obtain ⟨k, hfield, ⟨hen, herrie⟩, hhandle⟩ := hcall hbit
    exact ⟨k, hfield, hen, herrie, hhandle⟩

/-- Settles O51, from what an entry can do. -/
theorem entriesOpenOneServiceAndWriteOnlyTheLatch : Obligations.EntriesOpenOneServiceAndWriteOnlyTheLatch := by
  intro v s
  obtain ⟨t, ht, heff⟩ := hasEntryEffect_exec v s
  refine ⟨t, ht, ?_⟩
  cases heff with
  | refused hopen => exact ⟨fun _ => rfl, hopen, fun _ _ => rfl, rfl⟩
  | opened hclosed a snap hoffer =>
    refine ⟨fun hopen => absurd (hclosed.symm.trans hopen) Bool.false_ne_true, ?_, fun v' hv' => ?_, rfl⟩
    · exact congrArg VLatch.valid ((State.setVl_vl_get s v v _).trans (if_pos rfl))
    · exact (State.setVl_vl_get s v v' _).trans (if_neg hv'.symm)

end

/-! PROOFS of the statements about the interrupt lines and the machine's outcomes (60_exceptions.md). First the enables
and flags behind each line, the sources of each vector, what an entry's chain finds, and that a step always gives a
state; then the statements. -/

namespace Sys2Proof.Machine

/-! The equations of the lines (R263 to R265). -/

theorem txEnable_iff (s : State) : txEnable s = true ↔ ∃ k, k < 9 ∧ s.ntf.en.getLsbD k = true := by
  simp only [txEnable, enabled, Bool.or_eq_true]
  constructor
  · rintro ((((((((h | h) | h) | h) | h) | h) | h) | h) | h) <;> exact ⟨_, by decide, h⟩
  · rintro ⟨k, hk, h⟩
    interval_cases k <;> simp [h]

theorem anyComplete_iff (s : State) : anyComplete s = true ↔ ∃ m : MbIdx, s.mf[m].rqcp = true := by
  simp [anyComplete, Fin.exists_fin_succ, or_assoc]

theorem irqTx_iff (s : State) : irqTx s = true ↔ txEnable s = true ∧ anyComplete s = true := Bool.and_eq_true_iff

theorem irqFifo_iff (s : State) (f : FifoIdx) : irqFifo s f = true ↔
    (s.ntf.en.getLsbD (9 + 3 * f.val) = true ∧ s.fifo[f].fmp ≠ 0) ∨
      (s.ntf.en.getLsbD (10 + 3 * f.val) = true ∧ s.fifo[f].full = true) ∨
      (s.ntf.en.getLsbD (11 + 3 * f.val) = true ∧ s.fifo[f].fovr = true) := by
  simp only [irqFifo, Bool.or_eq_true, Bool.and_eq_true, enabled_fifoKind, notEmpty_iff, or_assoc]
  rfl

theorem irqErr_iff (s : State) : irqErr s = true ↔ s.ntf.errie = true ∧
    ((s.ntf.en.getLsbD 15 = true ∧ s.err.ewg = true) ∨ (s.ntf.en.getLsbD 16 = true ∧ s.err.epv = true) ∨
      (s.ntf.en.getLsbD 17 = true ∧ s.err.bof = true) ∨ (s.ntf.en.getLsbD 18 = true ∧ s.err.merr = true)) := by
  simp only [irqErr, Bool.or_eq_true, Bool.and_eq_true, or_assoc]
  rfl

theorem irq_two_iff (s : State) : irq s 2 = true ↔ irqFifo s 1 = true ∨ irqErr s = true := Bool.or_eq_true_iff

/-! The sources of each vector (R96, R262). -/

theorem kindVector_eq_zero_iff : ∀ k, kindVector k = 0 ↔ ∃ m j, mbKind m j = k := by decide

theorem kindVector_eq_one_iff : ∀ k, kindVector k = 1 ↔ ∃ j, fifoKind 0 j = k := by decide

theorem kindVector_eq_two_iff :
    ∀ k, kindVector k = 2 ↔ (∃ j, fifoKind 1 j = k) ∨ k = 15 ∨ k = 16 ∨ k = 17 ∨ k = 18 := by decide

theorem sourceActive_mbKind (s : State) (m : MbIdx) (j : Fin 3) :
    sourceActive s (mbKind m j) = (txEnable s && mbEvent s m j) := by
  have hlt : 3 * m.val + j.val < 9 := by omega
  have hm : (3 * m.val + j.val) / 3 = m.val := by omega
  have hj : (3 * m.val + j.val) % 3 = j.val := by omega
  simp [sourceActive, sourceEnable, eventFlag, mbKind, hlt, hm, hj]

theorem sourceActive_fifoKind (s : State) (f : FifoIdx) (j : Fin 3) :
    sourceActive s (fifoKind f j) = (enabled s (fifoKind f j) && fifoEvent s f j) := by
  have hmailbox : ¬ 9 + 3 * f.val + j.val < 9 := by omega
  have hlt : 9 + 3 * f.val + j.val < 15 := by omega
  have hf : (9 + 3 * f.val + j.val - 9) / 3 = f.val := by omega
  have hj : (9 + 3 * f.val + j.val - 9) % 3 = j.val := by omega
  simp [sourceActive, sourceEnable, eventFlag, fifoKind, hmailbox, hlt, hf, hj]

/-- R262: a mailbox of consistent flags is complete exactly when one of its three kinds is flagged. -/
theorem exists_mbEvent_iff {s : State} {m : MbIdx} (h : FlagsInv s.mf[m]) :
    (∃ j, mbEvent s m j = true) ↔ s.mf[m].rqcp = true := by
  have hkinds : (∃ j, mbEvent s m j = true) ↔ s.mf[m].rqcp = true ∧
      (s.mf[m].txok = true ∨ s.mf[m].abrt = true ∨ s.mf[m].alst = true ∨ s.mf[m].terr = true) := by
    simp [Fin.exists_fin_succ, mbEvent]
  rw [hkinds, and_iff_left_iff_imp]
  intro hr
  have hsome : ∀ a b c : Bool, a = true ∨ (!a && !b && !c) = true ∨ b = true ∨ c = true := by decide
  rw [abrt_eq_of_complete h hr]
  exact hsome _ _ _

theorem irqTx_iff_sourceActive {s : State} (h : ∀ m : MbIdx, FlagsInv s.mf[m]) :
    irqTx s = true ↔ ∃ m j, sourceActive s (mbKind m j) = true := by
  simp only [irqTx_iff, anyComplete_iff, sourceActive_mbKind, Bool.and_eq_true, exists_and_left,
    exists_mbEvent_iff (h _)]

theorem irqFifo_iff_sourceActive (s : State) (f : FifoIdx) :
    irqFifo s f = true ↔ ∃ j, sourceActive s (fifoKind f j) = true := by
  simp [irqFifo, sourceActive_fifoKind, fifoEvent, Fin.exists_fin_succ, or_assoc]

theorem irqErr_iff_sourceActive (s : State) : irqErr s = true ↔ sourceActive s 15 = true ∨ sourceActive s 16 = true ∨
    sourceActive s 17 = true ∨ sourceActive s 18 = true := by
  simp [irqErr, sourceActive, sourceEnable, eventFlag, and_assoc, ← and_or_left, or_assoc]

/-! What an entry's chain finds (R239, R264, R265). -/

theorem any_pred_rxChain (s : State) (f : FifoIdx) : (rxChain s f).any Link.pred = irqFifo s f := by
  simp [rxChain, irqFifo, Bool.or_assoc]

theorem any_pred_sceChain (s : State) : (sceChain s).any Link.pred = irqErr s := by
  cases herrie : s.ntf.errie <;> simp [sceChain, irqErr, herrie, Bool.or_assoc]

/-- R235: the third vector's entry asks for FIFO 1 and then for the errors, as its line does. -/
theorem any_pred_thirdChain (s : State) : (rxChain s 1 ++ sceChain s).any Link.pred = irq s 2 := by
  rw [List.any_append, any_pred_rxChain, any_pred_sceChain]
  rfl

/-- R239: an entry answers two words, with `ev` set exactly when a link of its chain holds. -/
theorem vectorEntry_ev (v : VecIdx) (links : List Link) (s : State) :
    ∃ (t : State) (r0 r1 : Word), vectorEntry v links s = .next t ∧
      t.answers = s.answers ++ [⟨.ok, [r0, r1]⟩] ∧ bitOf r0 8 = links.any Link.pred := by
  rcases vectorEntry_cases v links s with ⟨hnone, h⟩ | ⟨l, hl, h⟩
  · have hlow : links.any Link.pred = false :=
      List.any_eq_false.2 fun x hx => Bool.eq_false_iff.1 ((chain_eq_none links).1 hnone x hx)
    exact ⟨_, _, _, h, rfl, (bitOf_zero 8).trans hlow.symm⟩
  · obtain ⟨hpred, -⟩ := chain_eq_some links l hl
    have hhigh : links.any Link.pred = true := List.any_eq_true.2 ⟨l, mem_of_chain_eq_some hl, hpred⟩
    obtain ⟨-, -, hev, -⟩ := vectorWord_layout l.kind true true (hasCallback s l.kind)
    refine ⟨_, _, if hasCallback s l.kind then s.ntf.cb[l.kind] else 0, h, ?_, hev.trans hhigh.symm⟩
    split <;> rfl

/-! A step always gives a state (R260, R304). -/

theorem exists_step_eq_next (s : State) : ∃ t, step s = .next t := by
  have host {u : State} (hu : HostMoves s u) : ∃ t, step s = .next t := by
    obtain ⟨t, ht, -⟩ := hostEffect_hostTurn u
    exact ⟨t, (step_of_hostMoves s u hu).trans ht⟩
  rcases hs : s.sched with _ | ⟨_ | a | d, r⟩
  · exact host (.inl ⟨hs, rfl⟩)
  · exact host (.inr ⟨r, hs, rfl⟩)
  · exact ⟨_, step_of_agent_cons hs⟩
  · exact ⟨_, step_of_reset hs⟩

/-! An enabled agent's step (R11). -/

theorem step_of_agentEnabled {a : AgentStep} {s u : State} (h : AgentMoves a s u) (hen : agentEnabled a u = true) :
    step s = .next (agentEffect a u) := by
  rw [step_of_agentMoves a s u h, agentTurn_of_enabled hen]

end Sys2Proof.Machine

section

open Sys2Proof Sys2Proof.Machine

/-- Settles O8: no step stops, so no run does. -/
theorem machineNeverStops : Obligations.MachineNeverStops := by
  intro k s
  have hstep (u : State) : True → ∃ t, step u = .next t ∧ True := fun _ =>
    (exists_step_eq_next u).imp fun _ h => ⟨h, trivial⟩
  exact (run_keeps hstep k trivial).imp fun _ h => h.1

/-- Settles O53: an entry's chain holds a link exactly when its line's equation does. -/
theorem linesAreHighExactlyWhenTheEntryFindsAnEvent : Obligations.LinesAreHighExactlyWhenTheEntryFindsAnEvent := by
  refine fun s => ⟨irqFifo_iff s 0, ?_, fun v hv hclosed => ?_⟩
  · rw [irq_two_iff, irqFifo_iff, irqErr_iff, or_assoc, or_assoc]
    rfl
  · match v with
    | 0 => exact (hv rfl).elim
    | 1 =>
      obtain ⟨t, r0, r1, hentry, hans, hev⟩ := vectorEntry_ev 1 (rxChain s 0) s
      have hexec := (exec_vecRx0 s).trans (if_neg (Bool.eq_false_iff.1 hclosed))
      exact ⟨t, r0, r1, hexec.trans hentry, hans, hev.trans (any_pred_rxChain s 0)⟩
    | 2 =>
      obtain ⟨t, r0, r1, hentry, hans, hev⟩ := vectorEntry_ev 2 (rxChain s 1 ++ sceChain s) s
      have hexec := (exec_vecRx1Sce s).trans (if_neg (Bool.eq_false_iff.1 hclosed))
      exact ⟨t, r0, r1, hexec.trans hentry, hans, hev.trans (any_pred_thirdChain s)⟩

/-- Settles O54, vector by vector. -/
theorem lineIsTheOrOfItsActiveSources : Obligations.LineIsTheOrOfItsActiveSources := by
  intro s v h
  match v with
  | 0 =>
    simp only [kindVector_eq_zero_iff, exists_exists_exists_and_eq]
    exact irqTx_iff_sourceActive h
  | 1 =>
    simp only [kindVector_eq_one_iff, exists_exists_eq_and]
    exact irqFifo_iff_sourceActive s 0
  | 2 =>
    simp only [kindVector_eq_two_iff, or_and_right, exists_or, exists_exists_eq_and, exists_eq_left]
    rw [irq_two_iff, irqFifo_iff_sourceActive, irqErr_iff_sourceActive]

/-- Settles O52, from what the shared enable and the request-complete flags say. -/
theorem transmitLineSharesOneEnable : Obligations.TransmitLineSharesOneEnable := fun s =>
  (irqTx_iff s).trans (and_congr (txEnable_iff s) (anyComplete_iff s))

/-- Settles O55: ErrEngine's steps are enabled, a multi-error's for its code is not 0. -/
theorem errorEngineLatchesItsFlags : Obligations.ErrorEngineLatchesItsFlags := by
  refine fun s u => ⟨fun h => step_of_agentEnabled h rfl, fun h => step_of_agentEnabled h rfl,
    fun h => step_of_agentEnabled h rfl, fun c hc h => step_of_agentEnabled h (bne_iff_ne.2 ?_)⟩
  rintro rfl
  exact absurd hc (by decide)

end

/-! PROOFS of the statements about reset and hangs (70_reset_and_hazards.md). First which agent steps a state after
reset enables, and how a condition on infinite runs leads to another by one helpful turn; then how an INIT goes through
its two waits; then the statements. -/

namespace Sys2Proof.Machine

/-! After a reset (R301, R302). -/

/-- R302: in sleep with nothing requested, the acknowledgments have nothing to answer and the bus engines rest. -/
theorem agentEnabled_iff_of_asleep {u : State} (hmc : u.mc = ⟨true, true, false, false⟩) (a : AgentStep) :
    agentEnabled a u = true ↔
      a = .errWarn ∨ a = .errPassive ∨ a = .errBusOff ∨ ∃ c : BitVec 3, c ≠ 0 ∧ a = .errBusErr c := by
  have hmode : mode u = .sleep := by simp [mode, hmc]
  cases a with
  | ackWake | ackInit | ackRun => simp [agentEnabled, hmc]
  | txComplete | busRx => simp [agentEnabled, hmode]
  | errWarn | errPassive | errBusOff | errBusErr => simp [agentEnabled]

/-! Leading to, on an infinite run (R112): one turn brings a condition's goal about and every other keeps the
condition, so that the goal is met once that turn happens. -/

/-- The turn `t₀` leads from `P` to `Q`, and no other turn but a reset leaves `P`. -/
structure Ensures (t₀ : Turn) (P Q : State → Prop) : Prop where
  keeps : ∀ {t u}, P u → t ≠ t₀ → (∀ d, t ≠ .reset d) → P (stateAfter t u)
  gives : ∀ {u}, P u → Q (stateAfter t₀ u)

section LeadsTo

variable {sch : Schedule} {s : State} {t₀ : Turn} {P Q : State → Prop} {n : Nat}

/-- As long as the helpful turn does not happen, the condition stays. -/
theorem Ensures.stays (h : Ensures t₀ P Q) (hreset : ∀ k d, sch k ≠ .reset d) (hn : P (stateAt sch s n)) {m : Nat}
    (hle : n ≤ m) (hnot : ∀ k, n ≤ k → k < m → sch k ≠ t₀) : P (stateAt sch s m) := by
  induction m, hle using Nat.le_induction with
  | base => exact hn
  | succ m hle ih =>
    have hm : P (stateAt sch s m) := ih fun k hk hlt => hnot k hk (Nat.lt_succ_of_lt hlt)
    exact h.keeps hm (hnot m hle m.lt_succ_self) (hreset m)

/-- The first time the helpful turn happens, the goal is met. -/
theorem Ensures.eventually (h : Ensures t₀ P Q) (hreset : ∀ k d, sch k ≠ .reset d) (hn : P (stateAt sch s n))
    (hhappens : ∃ m, n ≤ m ∧ sch m = t₀) : ∃ k, n ≤ k ∧ Q (stateAt sch s k) := by
  classical
  obtain ⟨hle, hturn⟩ := Nat.find_spec hhappens
  have hfirst (k : Nat) (hk : n ≤ k) (hlt : k < Nat.find hhappens) : sch k ≠ t₀ :=
    fun heq => Nat.find_min hhappens hlt ⟨hk, heq⟩
  refine ⟨Nat.find hhappens + 1, Nat.le_succ_of_le hle, ?_⟩
  rw [stateAt_succ, hturn]
  exact h.gives (h.stays hreset hn hle hfirst)

/-- R112: a step that the condition enables happens under weak fairness: until then it would stay enabled. -/
theorem Ensures.eventually_of_weaklyFair {a : AgentStep} (h : Ensures (.agent a) P Q)
    (hreset : ∀ k d, sch k ≠ .reset d) (hfair : WeaklyFair a sch s) (hen : ∀ {u}, P u → agentEnabled a u = true)
    (hn : P (stateAt sch s n)) : ∃ k, n ≤ k ∧ Q (stateAt sch s k) := by
  by_cases hhappens : ∃ m, n ≤ m ∧ sch m = .agent a
  · exact h.eventually hreset hn hhappens
  · have hnever (k : Nat) (hk : n ≤ k) : sch k ≠ .agent a := fun heq => hhappens ⟨k, hk, heq⟩
    exact absurd (hfair n fun m hm => hen (h.stays hreset hn hm fun k hk _ => hnever k hk)) hhappens

end LeadsTo

/-! A wait and its end (R110, R112). -/

/-- R110: an INIT is suspended at a wait that ModeEngine's step `a` ends, and the wait is over. -/
inductive HasAck (s : State) : AgentStep → Prop where
  /-- The first wait, sleep left. -/
  | wake (hp : s.hpt.hp = .initWaitSleep) (hslak : s.mc.slak = false) : HasAck s .ackWake
  /-- The second wait, initialization acknowledged. -/
  | init (hp : s.hpt.hp = .initWaitInit) (hinak : s.mc.inak = true) : HasAck s .ackInit

theorem awaitsAck_or_hasAck_of_sleepWait {s : State} (hp : s.hpt.hp = .initWaitSleep) :
    AwaitsAck s .ackWake ∨ HasAck s .ackWake := by
  cases hslak : s.mc.slak with
  | true => exact .inl (.wake hp hslak)
  | false => exact .inr (.wake hp hslak)

theorem awaitsAck_or_hasAck_of_initWait {s : State} (hp : s.hpt.hp = .initWaitInit) :
    AwaitsAck s .ackInit ∨ HasAck s .ackInit := by
  cases hinak : s.mc.inak with
  | false => exact .inl (.init hp hinak)
  | true => exact .inr (.init hp hinak)

/-- R112: while INIT waits, the step it waits for is enabled. -/
theorem AwaitsAck.enabled {s : State} {a : AgentStep} (h : AwaitsAck s a) (hinv : Inv s) :
    agentEnabled a s = true := by
  obtain ⟨-, -, hsleep, hinit, -⟩ := hinv.handshake
  cases h with
  | wake hp hslak => simp [agentEnabled, hsleep hp, hslak]
  | init hp hinak =>
    obtain ⟨hslak, hrq⟩ := hinit hp
    simp [agentEnabled, hslak, hrq, hinak]

/-- R112: the awaited step ends the wait. -/
theorem AwaitsAck.hasAck {s : State} {a : AgentStep} (h : AwaitsAck s a) (hinv : Inv s) :
    HasAck (Machine.agentTurn a s) a := by
  rw [agentTurn_of_enabled (h.enabled hinv)]
  cases h with
  | wake hp => exact .wake hp rfl
  | init hp => exact .init hp rfl

/-- R112: an acknowledged initialization stays so while it is requested. -/
theorem agentTurn_inak {a : AgentStep} {s : State} (hrq : s.mc.initRq = true) (h : s.mc.inak = true) :
    (agentTurn a s).mc.inak = true := by
  rcases agentTurn_mc_cases a s with hmc | ⟨-, hmc⟩ | ⟨-, hmc⟩ | ⟨rfl, -⟩
  · rw [hmc, h]
  · rw [hmc, h]
  · rw [hmc]
  · rw [agentTurn_ackRun, if_neg (by simp [hrq]), h]

/-- R112: no agent takes the end of a wait back. -/
theorem HasAck.agentTurn {s : State} {a : AgentStep} (h : HasAck s a) (hinv : Inv s) (b : AgentStep) :
    HasAck (agentTurn b s) a := by
  cases h with
  | wake hp hslak => exact .wake (by rw [agentTurn_hpt, hp]) (agentTurn_slak hslak)
  | init hp hinak =>
    obtain ⟨-, -, -, hinit, -⟩ := hinv.handshake
    obtain ⟨-, hrq⟩ := hinit hp
    exact .init (by rw [agentTurn_hpt, hp]) (agentTurn_inak hrq hinak)

theorem HasAck.setSched {s : State} {a : AgentStep} (h : HasAck s a) (r : List Turn) : HasAck (s.setSched r) a := by
  cases h with
  | wake hp hslak => exact .wake hp hslak
  | init hp hinak => exact .init hp hinak

/-- The host's turn of an infinite schedule. -/
theorem stateAfter_host {s u : State} (h : hostTurn (s.setSched []) = .next u) : stateAfter .host s = u :=
  stateAfter_of_step _ _ _ ((step_of_host_cons rfl).trans h)

/-! Both waits end under fair acknowledgments (R304). -/

/-- A good state whose record of answers is `ans`. -/
structure GoodWithAnswers (ans : List Answer) (u : State) : Prop where
  inv : Inv u
  answers_eq : u.answers = ans

/-- INIT waits for ModeEngine's step `a`, nothing having been answered since `ans`. -/
def Waiting (ans : List Answer) (a : AgentStep) (u : State) : Prop := GoodWithAnswers ans u ∧ AwaitsAck u a

/-- INIT's wait for ModeEngine's step `a` is over, nothing having been answered since `ans`. -/
def Acknowledged (ans : List Answer) (a : AgentStep) (u : State) : Prop := GoodWithAnswers ans u ∧ HasAck u a

/-- INIT has returned in INIT mode, its one answer OK following `ans`. -/
def Returned (ans : List Answer) (u : State) : Prop :=
  u.hpt.hp = .idle ∧ u.answers = ans ++ [⟨.ok, []⟩] ∧ mode u = .init

section Waits

variable {ans : List Answer} {u : State}

theorem GoodWithAnswers.setSched (h : GoodWithAnswers ans u) (r : List Turn) : GoodWithAnswers ans (u.setSched r) :=
  ⟨h.inv.setSched r, h.answers_eq⟩

theorem GoodWithAnswers.agentTurn (h : GoodWithAnswers ans u) (b : AgentStep) :
    GoodWithAnswers ans (agentTurn b u) :=
  ⟨h.inv.agentTurn b, (agentTurn_answers b u).trans h.answers_eq⟩

theorem GoodWithAnswers.waiting_or_acknowledged (h : GoodWithAnswers ans u) {a : AgentStep}
    (hwait : AwaitsAck u a ∨ HasAck u a) : Waiting ans a u ∨ Acknowledged ans a u :=
  hwait.imp (⟨h, ·⟩) (⟨h, ·⟩)

theorem Waiting.enabled {a : AgentStep} (h : Waiting ans a u) : agentEnabled a u = true := by
  obtain ⟨hgood, hawaits⟩ := h
  exact hawaits.enabled hgood.inv

/-- R112, R116: only the awaited step ends a wait. -/
theorem ensures_acknowledged (a : AgentStep) : Ensures (.agent a) (Waiting ans a) (Acknowledged ans a) where
  keeps := by
    rintro t u ⟨hgood, hawaits⟩ hne hreset
    have hgood := hgood.setSched []
    have hawaits := hawaits.setSched []
    cases t with
    | host =>
      rw [stateAfter_host hawaits.hostTurn_eq]
      exact ⟨hgood, hawaits⟩
    | agent b => exact ⟨hgood.agentTurn b, hawaits.agentTurn fun hb => hne (congrArg Turn.agent hb)⟩
    | reset d => exact absurd rfl (hreset d)
  gives := by
    rintro u ⟨hgood, hawaits⟩
    have hgood := hgood.setSched []
    exact ⟨hgood.agentTurn a, (hawaits.setSched []).hasAck hgood.inv⟩

/-- R110: INIT goes on from a wait that is over in the host's turn alone. -/
theorem ensures_of_host_gives {a : AgentStep} {Q : State → Prop}
    (hgives : ∀ {u}, Acknowledged ans a u → ∃ v, hostTurn u = .next v ∧ Q v) :
    Ensures .host (Acknowledged ans a) Q where
  keeps := by
    rintro t u ⟨hgood, hack⟩ hne hreset
    have hgood := hgood.setSched []
    cases t with
    | host => exact absurd rfl hne
    | agent b => exact ⟨hgood.agentTurn b, (hack.setSched []).agentTurn hgood.inv b⟩
    | reset d => exact absurd rfl (hreset d)
  gives := by
    rintro u ⟨hgood, hack⟩
    obtain ⟨v, hturn, hv⟩ := hgives (u := u.setSched []) ⟨hgood.setSched [], hack.setSched []⟩
    rwa [stateAfter_host hturn]

/-- R110: phase P2 leads to the second wait, which an earlier acknowledgment may already have ended. -/
theorem ensures_secondWait : Ensures .host (Acknowledged ans .ackWake)
    (fun u => Waiting ans .ackInit u ∨ Acknowledged ans .ackInit u) := by
  refine ensures_of_host_gives ?_
  rintro u ⟨hgood, hack⟩
  cases hack with
  | wake hp hslak =>
    have hgood : GoodWithAnswers ans (initPhase2 u) := ⟨hgood.inv.initPhase2 hp hslak, hgood.answers_eq⟩
    exact ⟨_, hostTurn_of_awake hp hslak, hgood.waiting_or_acknowledged (awaitsAck_or_hasAck_of_initWait rfl)⟩

/-- R110: phase P3 answers OK and leaves the mode INIT. -/
theorem ensures_returned : Ensures .host (Acknowledged ans .ackInit) (Returned ans) := by
  refine ensures_of_host_gives ?_
  rintro u ⟨hgood, hack⟩
  cases hack with
  | init hp hinak =>
    have hanswers : u.answers ++ [⟨.ok, []⟩] = ans ++ [⟨.ok, []⟩] := by rw [hgood.answers_eq]
    have hmode : mode u = .init := mode_of_initAcknowledged hgood.inv hp hinak
    exact ⟨_, hostTurn_of_initAcknowledged hp hinak, rfl, hanswers, hmode⟩

section FairRun

variable {sch : Schedule} {s : State} {n : Nat}

theorem eventually_acknowledged {a : AgentStep} (hreset : ∀ k d, sch k ≠ .reset d) (hfair : WeaklyFair a sch s)
    (hn : Waiting ans a (stateAt sch s n) ∨ Acknowledged ans a (stateAt sch s n)) :
    ∃ k, Acknowledged ans a (stateAt sch s k) := by
  rcases hn with hwaiting | hack
  · obtain ⟨k, -, hk⟩ := (ensures_acknowledged a).eventually_of_weaklyFair hreset hfair Waiting.enabled hwaiting
    exact ⟨k, hk⟩
  · exact ⟨n, hack⟩

/-- R304: from the second wait on. -/
theorem eventually_returned_of_secondWait (hreset : ∀ k d, sch k ≠ .reset d)
    (hhost : ∀ n, ∃ k, n ≤ k ∧ sch k = .host) (hfair : WeaklyFair .ackInit sch s)
    (hn : Waiting ans .ackInit (stateAt sch s n) ∨ Acknowledged ans .ackInit (stateAt sch s n)) :
    ∃ k, Returned ans (stateAt sch s k) := by
  obtain ⟨m, hm⟩ := eventually_acknowledged hreset hfair hn
  obtain ⟨k, -, hk⟩ := ensures_returned.eventually hreset hm (hhost m)
  exact ⟨k, hk⟩

/-- R304: from the first wait on. -/
theorem eventually_returned_of_firstWait (hreset : ∀ k d, sch k ≠ .reset d)
    (hhost : ∀ n, ∃ k, n ≤ k ∧ sch k = .host) (hfair : ModeAckFair sch s)
    (hn : Waiting ans .ackWake (stateAt sch s n) ∨ Acknowledged ans .ackWake (stateAt sch s n)) :
    ∃ k, Returned ans (stateAt sch s k) := by
  obtain ⟨hwake, hinit, -⟩ := hfair
  obtain ⟨m, hm⟩ := eventually_acknowledged hreset hwake hn
  obtain ⟨k, -, hk⟩ := ensures_secondWait.eventually hreset hm (hhost m)
  exact eventually_returned_of_secondWait hreset hhost hinit hk

end FairRun

end Waits

end Sys2Proof.Machine

section

open Sys2Proof Sys2Proof.Machine

/-- Settles O20, from the wait at which the INIT is suspended. -/
theorem initReturnsUnderFairAcknowledgments : Obligations.InitReturnsUnderFairAcknowledgments := by
  intro sch s hinv hpar hadm hreset hhost hbusy
  have hfair : ModeAckFair sch s := hadm hpar
  have hgood : GoodWithAnswers s.answers (stateAt sch s 0) := ⟨hinv, rfl⟩
  cases hp : s.hpt.hp with
  | idle => exact absurd hp hbusy
  | initWaitSleep =>
    have hwait := hgood.waiting_or_acknowledged (awaitsAck_or_hasAck_of_sleepWait hp)
    exact eventually_returned_of_firstWait hreset hhost hfair hwait
  | initWaitInit =>
    have hwait := hgood.waiting_or_acknowledged (awaitsAck_or_hasAck_of_initWait hp)
    obtain ⟨-, hinit, -⟩ := hfair
    exact eventually_returned_of_secondWait hreset hhost hinit hwait

/-- Settles O57: a reset leaves the block in sleep with nothing requested. -/
theorem afterResetOnlyTheErrorEngineMoves : Obligations.AfterResetOnlyTheErrorEngineMoves := by
  refine ⟨fun d s r hs => step_of_reset hs, fun d par u a hu => ⟨?_, fun s hmoves hdisabled => ?_⟩⟩
  · have hmc : u.mc = ⟨true, true, false, false⟩ := congrArg State.mc hu
    exact agentEnabled_iff_of_asleep hmc a
  · rw [step_of_agentMoves a s u hmoves, agentTurn_of_not_enabled (Bool.eq_false_iff.1 hdisabled)]

end
